-- ==== Sys2Proof/Word.lean ====
section
/-! DEFINITION. The two value widths of the machine: the byte and the 16-bit word (spec 00_scope.md R8).
Everything cut out of them, glued together or extended stands in `Sys2Proof.Machine.Bytes`. -/

namespace Sys2Proof

/-- An 8-bit value. -/
abbrev Byte := BitVec 8

/-- A 16-bit value: an address, the accumulator, the link register, the program counter. -/
abbrev Word := BitVec 16

end Sys2Proof
end

