-- ==== Sys2Proof/Machine/Bytes.lean ====
section
/-! DEFINITION. Byte order and bit fields: how a word is cut into bytes and built from them
(little-endian everywhere, 20_memory.md R70), and how a byte is widened (00_scope.md R8). -/

namespace Sys2Proof

/-- `v[7:0]` of a word (00_scope.md R8). -/
def loByte (w : Word) : Byte := w.extractLsb' 0 8

/-- `v[15:8]` of a word (00_scope.md R8). -/
def hiByte (w : Word) : Byte := w.extractLsb' 8 8

/-- `{hi, lo}`: the concatenation with `hi` as the more significant part (00_scope.md R8). -/
def mkWord (hi lo : Byte) : Word := hi ++ lo

/-- `zext_16(b)` (00_scope.md R8); also `{0x00, b}`, the zero-page address of `b` (20_memory.md R65). -/
def zextWord (b : Byte) : Word := b.setWidth 16

/-- `sext_16(b)`, a displacement `signed_8(b)` reduced mod 2^16 (00_scope.md R8, 44_secondary.md R279). -/
def sextWord (b : Byte) : Word := b.signExtend 16

/-- `signed_8(b)` (00_scope.md R8). -/
def signed8 (b : Byte) : Int := b.toInt

/-- A legal SYS operand: D = signed_8(d) is 0 or negative, so d is 0x00 or 0x80 to 0xFF (30_encoding.md R107). -/
def sysOperandLegal (d : Byte) : Bool := decide (signed8 d ≤ 0)

/-- A flag as the byte 0x00 or 0x01. -/
def bitByte (c : Bool) : Byte := if c then 0x01#8 else 0x00#8

/-- The four bytes of a number, least significant first: an instruction as opcode_table.json numbers it,
laid out in memory order (30_encoding.md, conventions of the table). -/
def tableBytes (nbits w : Nat) : List Byte :=
  let v := w % 2 ^ nbits
  [BitVec.ofNat 8 v, BitVec.ofNat 8 (v / 256), BitVec.ofNat 8 (v / 65536), BitVec.ofNat 8 (v / 16777216)]

end Sys2Proof
end

