-- ==== Sys2Proof/Syntax.lean ====
section
/-! DEFINITION. The instructions: one constructor per row of spec/opcode_table.json (30_encoding.md R92, R94, R100),
and `esc`, the 187 unimplemented secondary opcodes (R102), which the table has no row for. The six mnemonics of
the relative branches carry the suffix `Rel`: the primary set has a BEQ and a BNE of its own. -/

namespace Sys2Proof

/-- Which instruction set a term belongs to (00_scope.md R2): the primary set with its extended page, or the
secondary set. -/
inductive Isa where
  | primary
  | secondary
  deriving DecidableEq, Repr

/-- An instruction of either set with its operand as it stands in the instruction's bytes: a `Byte` for formats P1,
X1, S1; a `Word`, `{hi, lo}`, for formats P2, X2, S2 (30_encoding.md R90, R93, R99). -/
inductive Instr where
  -- the primary set, 30_encoding.md R92
  | ldi (d : Byte)
  | ldwi (w : Word)
  | ld (a : Byte)
  | ldw (a : Byte)
  | st (a : Byte)
  | stw (a : Byte)
  | addw (a : Byte)
  | subw (a : Byte)
  | bra (target : Word)
  | beq (target : Word)
  | bne (target : Word)
  | blt (target : Word)
  | bge (target : Word)
  | bgt (target : Word)
  | ble (target : Word)
  | call (target : Word)
  | ret
  | push
  | pop
  | lup (d : Byte)
  | sys (d : Byte)
  | rti
  -- the Extended-Opcode Page, 30_encoding.md R94
  | negw
  | addi (b : Byte)
  | subi (b : Byte)
  | bral (rel : Word)
  | bnel (rel : Word)
  | beql (rel : Word)
  -- the secondary set, 30_encoding.md R100
  | ldaImm (b : Byte)
  | ldaZp (b : Byte)
  | ldaZpX (b : Byte)
  | ldaAbs (a : Word)
  | ldaAbsX (a : Word)
  | ldaAbsY (a : Word)
  | ldaIndX (b : Byte)
  | ldaIndY (b : Byte)
  | ldxImm (b : Byte)
  | ldxZp (b : Byte)
  | ldxAbs (a : Word)
  | ldyImm (b : Byte)
  | ldyZp (b : Byte)
  | ldyAbs (a : Word)
  | staZp (b : Byte)
  | staZpX (b : Byte)
  | staAbs (a : Word)
  | staAbsX (a : Word)
  | staAbsY (a : Word)
  | staIndX (b : Byte)
  | staIndY (b : Byte)
  | stxZp (b : Byte)
  | stxAbs (a : Word)
  | styZp (b : Byte)
  | styAbs (a : Word)
  | adcImm (b : Byte)
  | adcZp (b : Byte)
  | adcZpX (b : Byte)
  | adcAbs (a : Word)
  | adcAbsX (a : Word)
  | adcAbsY (a : Word)
  | adcIndX (b : Byte)
  | adcIndY (b : Byte)
  | sbcImm (b : Byte)
  | sbcZp (b : Byte)
  | sbcZpX (b : Byte)
  | sbcAbs (a : Word)
  | sbcAbsX (a : Word)
  | sbcAbsY (a : Word)
  | sbcIndX (b : Byte)
  | sbcIndY (b : Byte)
  | cmpImm (b : Byte)
  | cmpZp (b : Byte)
  | cmpAbs (a : Word)
  | jmpAbs (a : Word)
  | inx
  | iny
  | dex
  | dey
  | tax
  | tay
  | txa
  | tya
  | clc
  | sec
  | pha
  | pla
  | php
  | plp
  | nop
  | brk
  | bplRel (b : Byte)
  | bmiRel (b : Byte)
  | bvcRel (b : Byte)
  | bvsRel (b : Byte)
  | bccRel (b : Byte)
  | bcsRel (b : Byte)
  | bneRel (b : Byte)
  | beqRel (b : Byte)
  -- an unimplemented secondary opcode, 30_encoding.md R102, 44_secondary.md R291
  | esc (op : Byte)
  deriving DecidableEq, Repr

/-- The set an instruction belongs to. -/
def Instr.isa : Instr → Isa
  | .ldi _ | .ldwi _ | .ld _ | .ldw _ | .st _ | .stw _ | .addw _ | .subw _ | .bra _ | .beq _ | .bne _ | .blt _
  | .bge _ | .bgt _ | .ble _ | .call _ | .ret | .push | .pop | .lup _ | .sys _ | .rti | .negw | .addi _
  | .subi _ | .bral _ | .bnel _ | .beql _ => .primary
  | .ldaImm _ | .ldaZp _ | .ldaZpX _ | .ldaAbs _ | .ldaAbsX _ | .ldaAbsY _ | .ldaIndX _ | .ldaIndY _ | .ldxImm _
  | .ldxZp _ | .ldxAbs _ | .ldyImm _ | .ldyZp _ | .ldyAbs _ | .staZp _ | .staZpX _ | .staAbs _ | .staAbsX _
  | .staAbsY _ | .staIndX _ | .staIndY _ | .stxZp _ | .stxAbs _ | .styZp _ | .styAbs _ | .adcImm _ | .adcZp _
  | .adcZpX _ | .adcAbs _ | .adcAbsX _ | .adcAbsY _ | .adcIndX _ | .adcIndY _ | .sbcImm _ | .sbcZp _ | .sbcZpX _
  | .sbcAbs _ | .sbcAbsX _ | .sbcAbsY _ | .sbcIndX _ | .sbcIndY _ | .cmpImm _ | .cmpZp _ | .cmpAbs _ | .jmpAbs _
  | .inx | .iny | .dex | .dey | .tax | .tay | .txa | .tya | .clc | .sec | .pha | .pla | .php | .plp | .nop
  | .brk | .bplRel _ | .bmiRel _ | .bvcRel _ | .bvsRel _ | .bccRel _ | .bcsRel _ | .bneRel _ | .beqRel _
  | .esc _ => .secondary

end Sys2Proof
end

