-- ==== Sys2Proof/WellFormed.lean ====
section
/-! DEFINITION. The checks on a term that its types do not make: the two reserved ranges of an operand. -/

namespace Sys2Proof

/-- The 69 implemented secondary opcodes, in the order of opcode_table.json (30_encoding.md R100). -/
def implementedOpcodes : List Byte :=
  [0xA9#8, 0xA5#8, 0xB5#8, 0xAD#8, 0xBD#8, 0xB9#8, 0xA1#8, 0xB1#8, 0xA2#8, 0xA6#8, 0xAE#8, 0xA0#8,
   0xA4#8, 0xAC#8, 0x85#8, 0x95#8, 0x8D#8, 0x9D#8, 0x99#8, 0x81#8, 0x91#8, 0x86#8, 0x8E#8, 0x84#8,
   0x8C#8, 0x69#8, 0x65#8, 0x75#8, 0x6D#8, 0x7D#8, 0x79#8, 0x61#8, 0x71#8, 0xE9#8, 0xE5#8, 0xF5#8,
   0xED#8, 0xFD#8, 0xF9#8, 0xE1#8, 0xF1#8, 0xC9#8, 0xC5#8, 0xCD#8, 0x4C#8, 0xE8#8, 0xC8#8, 0xCA#8,
   0x88#8, 0xAA#8, 0xA8#8, 0x8A#8, 0x98#8, 0x18#8, 0x38#8, 0x48#8, 0x68#8, 0x08#8, 0x28#8, 0xEA#8,
   0x00#8, 0x10#8, 0x30#8, 0x50#8, 0x70#8, 0x90#8, 0xB0#8, 0xD0#8, 0xF0#8]

/-- An instruction that an encoding stands for: the SYS operand is not reserved (R95, R107), and the escape's
opcode is none of the implemented ones (R102). -/
def Instr.wellFormed : Instr → Bool
  | .sys d => sysOperandLegal d
  | .esc op => !implementedOpcodes.contains op
  | .ldi _ | .ldwi _ | .ld _ | .ldw _ | .st _ | .stw _ | .addw _ | .subw _ | .bra _ | .beq _ | .bne _ | .blt _
  | .bge _ | .bgt _ | .ble _ | .call _ | .ret | .push | .pop | .lup _ | .rti | .negw | .addi _ | .subi _
  | .bral _ | .bnel _ | .beql _ | .ldaImm _ | .ldaZp _ | .ldaZpX _ | .ldaAbs _ | .ldaAbsX _ | .ldaAbsY _
  | .ldaIndX _ | .ldaIndY _ | .ldxImm _ | .ldxZp _ | .ldxAbs _ | .ldyImm _ | .ldyZp _ | .ldyAbs _ | .staZp _
  | .staZpX _ | .staAbs _ | .staAbsX _ | .staAbsY _ | .staIndX _ | .staIndY _ | .stxZp _ | .stxAbs _ | .styZp _
  | .styAbs _ | .adcImm _ | .adcZp _ | .adcZpX _ | .adcAbs _ | .adcAbsX _ | .adcAbsY _ | .adcIndX _ | .adcIndY _
  | .sbcImm _ | .sbcZp _ | .sbcZpX _ | .sbcAbs _ | .sbcAbsX _ | .sbcAbsY _ | .sbcIndX _ | .sbcIndY _ | .cmpImm _
  | .cmpZp _ | .cmpAbs _ | .jmpAbs _ | .inx | .iny | .dex | .dey | .tax | .tay | .txa | .tya | .clc | .sec
  | .pha | .pla | .php | .plp | .nop | .brk | .bplRel _ | .bmiRel _ | .bvcRel _ | .bvsRel _ | .bccRel _
  | .bcsRel _ | .bneRel _ | .beqRel _ => true

end Sys2Proof
end

