-- ==== Sys2Proof/Decode.lean ====
section
/-! DEFINITION. Decoding: bytes in memory order to an instruction and the bytes after it, or a refusal by name;
and the encoder (30_encoding.md R90 to R102). The two instruction sets share byte values and have a decoder each;
which one reads a byte is decided by the active interpreter alone (40_scheduler_dispatch.md R125). -/

namespace Sys2Proof

/-- Why bytes are not an instruction of the set they are decoded in. -/
inductive DecodeError where
  /-- the bytes end before the instruction does -/
  | truncated
  /-- a primary opcode 0x00 or 0x18 to 0xFF (30_encoding.md R95, 41_primary.md R174) -/
  | illegalPrimaryOpcode (op : Byte)
  /-- an extended opcode 0x00 or 0x07 to 0xFF after PFX (30_encoding.md R95, 42_extended.md R197) -/
  | illegalExtendedOpcode (xop : Byte)
  /-- a SYS operand byte 0x01 to 0x7F (30_encoding.md R95, R107) -/
  | sysOperandReserved (d : Byte)
  deriving DecidableEq, Repr

/-- A row of a dispatch table by format: no operand byte, one, or two (30_encoding.md R90, R93, R99). -/
inductive OpRow where
  | op0 (i : Instr)
  | op1 (f : Byte → Instr)
  | op2 (f : Word → Instr)

/-- PFX, the escape opcode (30_encoding.md R92, R93). -/
def pfxOpcode : Byte := 0x17#8

/-- The primary opcode map (30_encoding.md R92); `none` for the reserved values and for PFX. -/
def primaryRow (op : Byte) : Option OpRow :=
  match op.toNat with
  | 0x01 => some (.op1 .ldi)
  | 0x02 => some (.op2 .ldwi)
  | 0x03 => some (.op1 .ld)
  | 0x04 => some (.op1 .ldw)
  | 0x05 => some (.op1 .st)
  | 0x06 => some (.op1 .stw)
  | 0x07 => some (.op1 .addw)
  | 0x08 => some (.op1 .subw)
  | 0x09 => some (.op2 .bra)
  | 0x0A => some (.op2 .beq)
  | 0x0B => some (.op2 .bne)
  | 0x0C => some (.op2 .blt)
  | 0x0D => some (.op2 .bge)
  | 0x0E => some (.op2 .bgt)
  | 0x0F => some (.op2 .ble)
  | 0x10 => some (.op2 .call)
  | 0x11 => some (.op0 .ret)
  | 0x12 => some (.op0 .push)
  | 0x13 => some (.op0 .pop)
  | 0x14 => some (.op1 .lup)
  | 0x15 => some (.op1 .sys)
  | 0x16 => some (.op0 .rti)
  | _ => none

/-- The extended opcode map (30_encoding.md R94); `none` for the reserved values. -/
def extendedRow (xop : Byte) : Option OpRow :=
  match xop.toNat with
  | 0x01 => some (.op0 .negw)
  | 0x02 => some (.op1 .addi)
  | 0x03 => some (.op1 .subi)
  | 0x04 => some (.op2 .bral)
  | 0x05 => some (.op2 .bnel)
  | 0x06 => some (.op2 .beql)
  | _ => none

/-- The secondary opcode map (30_encoding.md R100); `none` for the 187 unimplemented values (R102). -/
def secondaryRow (op : Byte) : Option OpRow :=
  match op.toNat with
  | 0x00 => some (.op0 .brk)
  | 0x08 => some (.op0 .php)
  | 0x10 => some (.op1 .bplRel)
  | 0x18 => some (.op0 .clc)
  | 0x28 => some (.op0 .plp)
  | 0x30 => some (.op1 .bmiRel)
  | 0x38 => some (.op0 .sec)
  | 0x48 => some (.op0 .pha)
  | 0x4C => some (.op2 .jmpAbs)
  | 0x50 => some (.op1 .bvcRel)
  | 0x61 => some (.op1 .adcIndX)
  | 0x65 => some (.op1 .adcZp)
  | 0x68 => some (.op0 .pla)
  | 0x69 => some (.op1 .adcImm)
  | 0x6D => some (.op2 .adcAbs)
  | 0x70 => some (.op1 .bvsRel)
  | 0x71 => some (.op1 .adcIndY)
  | 0x75 => some (.op1 .adcZpX)
  | 0x79 => some (.op2 .adcAbsY)
  | 0x7D => some (.op2 .adcAbsX)
  | 0x81 => some (.op1 .staIndX)
  | 0x84 => some (.op1 .styZp)
  | 0x85 => some (.op1 .staZp)
  | 0x86 => some (.op1 .stxZp)
  | 0x88 => some (.op0 .dey)
  | 0x8A => some (.op0 .txa)
  | 0x8C => some (.op2 .styAbs)
  | 0x8D => some (.op2 .staAbs)
  | 0x8E => some (.op2 .stxAbs)
  | 0x90 => some (.op1 .bccRel)
  | 0x91 => some (.op1 .staIndY)
  | 0x95 => some (.op1 .staZpX)
  | 0x98 => some (.op0 .tya)
  | 0x99 => some (.op2 .staAbsY)
  | 0x9D => some (.op2 .staAbsX)
  | 0xA0 => some (.op1 .ldyImm)
  | 0xA1 => some (.op1 .ldaIndX)
  | 0xA2 => some (.op1 .ldxImm)
  | 0xA4 => some (.op1 .ldyZp)
  | 0xA5 => some (.op1 .ldaZp)
  | 0xA6 => some (.op1 .ldxZp)
  | 0xA8 => some (.op0 .tay)
  | 0xA9 => some (.op1 .ldaImm)
  | 0xAA => some (.op0 .tax)
  | 0xAC => some (.op2 .ldyAbs)
  | 0xAD => some (.op2 .ldaAbs)
  | 0xAE => some (.op2 .ldxAbs)
  | 0xB0 => some (.op1 .bcsRel)
  | 0xB1 => some (.op1 .ldaIndY)
  | 0xB5 => some (.op1 .ldaZpX)
  | 0xB9 => some (.op2 .ldaAbsY)
  | 0xBD => some (.op2 .ldaAbsX)
  | 0xC5 => some (.op1 .cmpZp)
  | 0xC8 => some (.op0 .iny)
  | 0xC9 => some (.op1 .cmpImm)
  | 0xCA => some (.op0 .dex)
  | 0xCD => some (.op2 .cmpAbs)
  | 0xD0 => some (.op1 .bneRel)
  | 0xE1 => some (.op1 .sbcIndX)
  | 0xE5 => some (.op1 .sbcZp)
  | 0xE8 => some (.op0 .inx)
  | 0xE9 => some (.op1 .sbcImm)
  | 0xEA => some (.op0 .nop)
  | 0xED => some (.op2 .sbcAbs)
  | 0xF0 => some (.op1 .beqRel)
  | 0xF1 => some (.op1 .sbcIndY)
  | 0xF5 => some (.op1 .sbcZpX)
  | 0xF9 => some (.op2 .sbcAbsY)
  | 0xFD => some (.op2 .sbcAbsX)
  | _ => none

/-- Operand assembly: one byte as it stands, two as `{hi, lo}` with the low byte first (30_encoding.md R91, R101). -/
def OpRow.readOperand : OpRow → List Byte → Except DecodeError (Instr × List Byte)
  | .op0 i, rest => .ok (i, rest)
  | .op1 f, b :: rest => .ok (f b, rest)
  | .op2 f, lo :: hi :: rest => .ok (f (mkWord hi lo), rest)
  | .op1 _, [] => .error .truncated
  | .op2 _, [] => .error .truncated
  | .op2 _, [_] => .error .truncated

/-- The reserved SYS operands are refused by name (30_encoding.md R95). -/
def refuseReservedOperand : Instr × List Byte → Except DecodeError (Instr × List Byte)
  | (.sys d, rest) => if sysOperandLegal d then .ok (.sys d, rest) else .error (.sysOperandReserved d)
  | other => .ok other

/-- Decoding in the Extended-Opcode Page, after the escape byte (30_encoding.md R93, 42_extended.md R190). -/
def decodeExtended : List Byte → Except DecodeError (Instr × List Byte)
  | [] => .error .truncated
  | xop :: rest =>
    match extendedRow xop with
    | some row => row.readOperand rest
    | none => .error (.illegalExtendedOpcode xop)

/-- Decoding in the primary set: the opcode byte alone tells the length, and after PFX the byte behind it does
(30_encoding.md R97). -/
def decodePrimary : List Byte → Except DecodeError (Instr × List Byte)
  | [] => .error .truncated
  | op :: rest =>
    if op = pfxOpcode then decodeExtended rest
    else
      match primaryRow op with
      | some row => (row.readOperand rest).bind refuseReservedOperand
      | none => .error (.illegalPrimaryOpcode op)

/-- Decoding in the secondary set: every opcode means something, an unimplemented one the escape of format S0
(30_encoding.md R99, R102). -/
def decodeSecondary : List Byte → Except DecodeError (Instr × List Byte)
  | [] => .error .truncated
  | op :: rest =>
    match secondaryRow op with
    | some row => row.readOperand rest
    | none => .ok (.esc op, rest)

/-- The decoder of one instruction set. -/
def decode : Isa → List Byte → Except DecodeError (Instr × List Byte)
  | .primary => decodePrimary
  | .secondary => decodeSecondary

/-- The bytes of a 16-bit operand, low byte first (20_memory.md R70). -/
def wordBytes (w : Word) : List Byte := [loByte w, hiByte w]

/-- The bytes of an instruction in memory order (30_encoding.md R92, R94, R100, R102). -/
def encode : Instr → List Byte
  | .ldi d => [0x01#8, d]
  | .ldwi w => [0x02#8] ++ wordBytes w
  | .ld a => [0x03#8, a]
  | .ldw a => [0x04#8, a]
  | .st a => [0x05#8, a]
  | .stw a => [0x06#8, a]
  | .addw a => [0x07#8, a]
  | .subw a => [0x08#8, a]
  | .bra target => [0x09#8] ++ wordBytes target
  | .beq target => [0x0A#8] ++ wordBytes target
  | .bne target => [0x0B#8] ++ wordBytes target
  | .blt target => [0x0C#8] ++ wordBytes target
  | .bge target => [0x0D#8] ++ wordBytes target
  | .bgt target => [0x0E#8] ++ wordBytes target
  | .ble target => [0x0F#8] ++ wordBytes target
  | .call target => [0x10#8] ++ wordBytes target
  | .ret => [0x11#8]
  | .push => [0x12#8]
  | .pop => [0x13#8]
  | .lup d => [0x14#8, d]
  | .sys d => [0x15#8, d]
  | .rti => [0x16#8]
  | .negw => [pfxOpcode, 0x01#8]
  | .addi b => [pfxOpcode, 0x02#8, b]
  | .subi b => [pfxOpcode, 0x03#8, b]
  | .bral rel => [pfxOpcode, 0x04#8] ++ wordBytes rel
  | .bnel rel => [pfxOpcode, 0x05#8] ++ wordBytes rel
  | .beql rel => [pfxOpcode, 0x06#8] ++ wordBytes rel
  | .ldaImm b => [0xA9#8, b]
  | .ldaZp b => [0xA5#8, b]
  | .ldaZpX b => [0xB5#8, b]
  | .ldaAbs a => [0xAD#8] ++ wordBytes a
  | .ldaAbsX a => [0xBD#8] ++ wordBytes a
  | .ldaAbsY a => [0xB9#8] ++ wordBytes a
  | .ldaIndX b => [0xA1#8, b]
  | .ldaIndY b => [0xB1#8, b]
  | .ldxImm b => [0xA2#8, b]
  | .ldxZp b => [0xA6#8, b]
  | .ldxAbs a => [0xAE#8] ++ wordBytes a
  | .ldyImm b => [0xA0#8, b]
  | .ldyZp b => [0xA4#8, b]
  | .ldyAbs a => [0xAC#8] ++ wordBytes a
  | .staZp b => [0x85#8, b]
  | .staZpX b => [0x95#8, b]
  | .staAbs a => [0x8D#8] ++ wordBytes a
  | .staAbsX a => [0x9D#8] ++ wordBytes a
  | .staAbsY a => [0x99#8] ++ wordBytes a
  | .staIndX b => [0x81#8, b]
  | .staIndY b => [0x91#8, b]
  | .stxZp b => [0x86#8, b]
  | .stxAbs a => [0x8E#8] ++ wordBytes a
  | .styZp b => [0x84#8, b]
  | .styAbs a => [0x8C#8] ++ wordBytes a
  | .adcImm b => [0x69#8, b]
  | .adcZp b => [0x65#8, b]
  | .adcZpX b => [0x75#8, b]
  | .adcAbs a => [0x6D#8] ++ wordBytes a
  | .adcAbsX a => [0x7D#8] ++ wordBytes a
  | .adcAbsY a => [0x79#8] ++ wordBytes a
  | .adcIndX b => [0x61#8, b]
  | .adcIndY b => [0x71#8, b]
  | .sbcImm b => [0xE9#8, b]
  | .sbcZp b => [0xE5#8, b]
  | .sbcZpX b => [0xF5#8, b]
  | .sbcAbs a => [0xED#8] ++ wordBytes a
  | .sbcAbsX a => [0xFD#8] ++ wordBytes a
  | .sbcAbsY a => [0xF9#8] ++ wordBytes a
  | .sbcIndX b => [0xE1#8, b]
  | .sbcIndY b => [0xF1#8, b]
  | .cmpImm b => [0xC9#8, b]
  | .cmpZp b => [0xC5#8, b]
  | .cmpAbs a => [0xCD#8] ++ wordBytes a
  | .jmpAbs a => [0x4C#8] ++ wordBytes a
  | .inx => [0xE8#8]
  | .iny => [0xC8#8]
  | .dex => [0xCA#8]
  | .dey => [0x88#8]
  | .tax => [0xAA#8]
  | .tay => [0xA8#8]
  | .txa => [0x8A#8]
  | .tya => [0x98#8]
  | .clc => [0x18#8]
  | .sec => [0x38#8]
  | .pha => [0x48#8]
  | .pla => [0x68#8]
  | .php => [0x08#8]
  | .plp => [0x28#8]
  | .nop => [0xEA#8]
  | .brk => [0x00#8]
  | .bplRel b => [0x10#8, b]
  | .bmiRel b => [0x30#8, b]
  | .bvcRel b => [0x50#8, b]
  | .bvsRel b => [0x70#8, b]
  | .bccRel b => [0x90#8, b]
  | .bcsRel b => [0xB0#8, b]
  | .bneRel b => [0xD0#8, b]
  | .beqRel b => [0xF0#8, b]
  | .esc op => [op]

/-- How many bits opcode_table.json gives the row of a primary opcode, operand included; 0 where it has none. -/
def primaryRowBits (op : Byte) : Nat :=
  if op = pfxOpcode then 16
  else
    match primaryRow op with
    | some (.op0 _) => 8
    | some (.op1 _) => 16
    | some (.op2 _) => 24
    | none => 0

/-- Which set a row of opcode_table.json belongs to, from its width and opcode byte. The two sets share three
opcode bytes: 0x08 is SUBW (16 bits) and PHP (8), 0x10 is CALL (24) and BPL (8, or 16 with its displacement);
0x00 is BRK and no primary opcode. -/
def tableRowIsa (nbits : Nat) (op : Byte) : Isa :=
  if (secondaryRow op).isSome && decide (nbits < primaryRowBits op ∨ primaryRowBits op = 0) then .secondary
  else .primary

/-- The instruction the decoder reads from the bits `w` of a row of spec/opcode_table.json that gives the row
`nbits` bits; `none` where the decoder refuses. -/
def decodeTableWord (nbits w : Nat) : Option Instr :=
  match decode (tableRowIsa nbits (BitVec.ofNat 8 (w % 2 ^ nbits))) (tableBytes nbits w) with
  | .ok (i, _) => some i
  | .error _ => none

end Sys2Proof
end

