-- ==== Sys2Proof/Config.lean ====
section
/-! DEFINITION. The implementation parameters of 00_scope.md R7 as ONE structure of plain data, the constraints
R7 puts on them, and the spec's defaults. A configuration is fixed for a whole run (10_state.md R39); the state
carries it in a field that no rule writes, so that every statement about every state is a statement about every
configuration (93_implementation_defined.md section 4: nothing may rest on a default that is not a hypothesis).
At the end the native port: what a configured routine may see and do (43_sys.md R215). -/

namespace Sys2Proof

/-- Host cycles in one tick: "fixed by the source, not open" (00_scope.md R7, R11). -/
def cyclesPerTick : Nat := 2

/-- STACK_PAGE, the high byte of every stack address (00_scope.md R7: fixed). -/
def stackPage : Byte := 0x00#8

/-- MEM_SIZE (00_scope.md R7: fixed at 2^16). -/
def memSize : Nat := 65536

/-- COST_P: declared ticks of the primary opcodes (30_encoding.md R96). SYS and RTI are charged otherwise. -/
structure PrimaryCosts where
  ldi : Nat
  ldwi : Nat
  ld : Nat
  ldw : Nat
  st : Nat
  stw : Nat
  addw : Nat
  subw : Nat
  bra : Nat
  beq : Nat
  bne : Nat
  blt : Nat
  bge : Nat
  bgt : Nat
  ble : Nat
  call : Nat
  ret : Nat
  push : Nat
  pop : Nat
  lup : Nat
  deriving DecidableEq, Repr

/-- COST_X: declared ticks of the extended instructions, the escape byte included (30_encoding.md R98). -/
structure ExtendedCosts where
  negw : Nat
  addi : Nat
  subi : Nat
  bral : Nat
  bnel : Nat
  beql : Nat
  deriving DecidableEq, Repr

/-- FD_COST: ticks of the secondary Fetch plus Decode step per mode class (30_encoding.md R103). -/
structure DecodeCosts where
  cheap : Nat
  medium : Nat
  expensive : Nat
  deriving DecidableEq, Repr

/-- EX_COST: ticks of each secondary Execute step (30_encoding.md R103); `brk` is also the cost of every
unimplemented opcode ("BRK and every unimplemented opcode"). -/
structure ExecuteCosts where
  lda : Nat
  ldx : Nat
  ldy : Nat
  sta : Nat
  stx : Nat
  sty : Nat
  adc : Nat
  sbc : Nat
  cmp : Nat
  inx : Nat
  iny : Nat
  dex : Nat
  dey : Nat
  tax : Nat
  tay : Nat
  txa : Nat
  tya : Nat
  clc : Nat
  sec : Nat
  pha : Nat
  pla : Nat
  php : Nat
  plp : Nat
  bpl : Nat
  bmi : Nat
  bvc : Nat
  bvs : Nat
  bcc : Nat
  bcs : Nat
  bne : Nat
  beq : Nat
  jmp : Nat
  nop : Nat
  brk : Nat
  deriving DecidableEq, Repr

/-- What stands in a SYS slot (43_sys.md R214, R218): one of the four reference routines of R219 to R222, or
`native id`, any other routine of the configuration, whose effect is the opaque `nativeRoutine id`. -/
inductive Routine where
  | placeholder
  | runSecondary
  | multiply16
  | copyBytes
  | native (id : Nat)
  deriving DecidableEq, Repr

/-- One slot of the SYS call table (43_sys.md R218): its symbolic name, the declared extra ticks, the routine,
and the ticks `report` (the R of R217, negative when legal) that a reference routine reports on return. -/
structure Slot where
  name : String
  extra : Nat
  routine : Routine
  report : Int
  deriving DecidableEq, Repr

/-- The implementation parameters of 00_scope.md R7 that are not fixed by the source or the spec. -/
structure Config where
  /-- W_T, width of the tick countdown in bits. -/
  wT : Nat
  /-- OVH_P, slice overhead of the primary interpreter, in cycles. -/
  ovhP : Nat
  /-- OVH_S, the same for the secondary interpreter. -/
  ovhS : Nat
  /-- MAXT_P, reserve of the primary interpreter, in ticks. -/
  maxtP : Nat
  /-- MAXT_S, the same for the secondary interpreter. -/
  maxtS : Nat
  costP : PrimaryCosts
  costX : ExtendedCosts
  /-- RTI_EXTRA, declared extra ticks of the interrupt return. -/
  rtiExtra : Nat
  /-- COST_RTI, cost of an admitted interrupt return. -/
  costRti : Nat
  fdCost : DecodeCosts
  /-- EXP_EXTRA_S, declared extra ticks of an expensive-class decode. -/
  expExtraS : Nat
  exCost : ExecuteCosts
  /-- SYSFN_ADDR, data address of the two-byte SYSFN window. -/
  sysfnAddr : Nat
  /-- SCRATCH_ADDR, data address of the eight-byte SCRATCH window. -/
  scratchAddr : Nat
  /-- IRQ_VECTOR_ADDR, data address of the two-byte interrupt vector. -/
  irqVectorAddr : Word
  /-- RESET_PC, value of PC after RESET. -/
  resetPc : Word
  /-- SYS_BASE, native address of SYS slot 0. -/
  sysBase : Nat
  /-- SYS_STRIDE, native address distance between slots. -/
  sysStride : Nat
  /-- SLOT[0..NSLOTS-1]; NSLOTS is its length. -/
  slots : List Slot
  /-- ROS, the read-only storage: the listed bytes, every other address 0x00. -/
  ros : List Host.Cell
  deriving DecidableEq, Repr

/-- TMAX, the largest representable tick count, 2^(W_T-1) - 1 (00_scope.md R7). -/
def Config.tmax (c : Config) : Int := 2 ^ (c.wT - 1) - 1

/-- NSLOTS, the number of SYS slots (00_scope.md R7). -/
def Config.nslots (c : Config) : Nat := c.slots.length

def PrimaryCosts.toList (c : PrimaryCosts) : List Nat :=
  [c.ldi, c.ldwi, c.ld, c.ldw, c.st, c.stw, c.addw, c.subw, c.bra, c.beq, c.bne, c.blt, c.bge, c.bgt, c.ble,
   c.call, c.ret, c.push, c.pop, c.lup]

def ExtendedCosts.toList (c : ExtendedCosts) : List Nat := [c.negw, c.addi, c.subi, c.bral, c.bnel, c.beql]

def ExecuteCosts.toList (c : ExecuteCosts) : List Nat :=
  [c.lda, c.ldx, c.ldy, c.sta, c.stx, c.sty, c.adc, c.sbc, c.cmp, c.inx, c.iny, c.dex, c.dey, c.tax, c.tay,
   c.txa, c.tya, c.clc, c.sec, c.pha, c.pla, c.php, c.plp, c.bpl, c.bmi, c.bvc, c.bvs, c.bcc, c.bcs, c.bne,
   c.beq, c.jmp, c.nop, c.brk]

/-- The tick constraints of 00_scope.md R7: what the scheduler's safety argument (R133, R134) needs. -/
structure Config.TicksWf (c : Config) : Prop where
  width : 2 ≤ c.wT
  reserveP : 1 ≤ c.maxtP ∧ c.maxtP ≤ 2 ^ (c.wT - 1)
  reserveS : 1 ≤ c.maxtS ∧ c.maxtS ≤ 2 ^ (c.wT - 1)
  primary : ∀ k ∈ c.costP.toList, 1 ≤ k ∧ k ≤ c.maxtP
  extended : ∀ k ∈ c.costX.toList, 1 ≤ k ∧ k ≤ c.maxtP
  rtiExtra : (c.rtiExtra : Int) ≤ c.tmax
  rti : 1 ≤ c.costRti ∧ c.costRti ≤ c.maxtP + c.rtiExtra
  decodeCheap : 1 ≤ c.fdCost.cheap ∧ c.fdCost.cheap ≤ c.maxtS
  decodeMedium : 1 ≤ c.fdCost.medium ∧ c.fdCost.medium ≤ c.maxtS
  decodeExpensive : 1 ≤ c.fdCost.expensive ∧ c.fdCost.expensive ≤ c.maxtS + c.expExtraS
  expExtra : (c.expExtraS : Int) ≤ c.tmax
  execute : ∀ k ∈ c.exCost.toList, 1 ≤ k ∧ k ≤ c.maxtS

/-- The address constraints of 00_scope.md R7: both windows inside the zero page and disjoint, the interrupt
vector outside them, the slots inside the 16-bit native address space. -/
structure Config.AddressesWf (c : Config) : Prop where
  sysfnWindow : c.sysfnAddr + 1 ≤ 0x00FF
  scratchWindow : c.scratchAddr + 7 ≤ 0x00FF
  disjoint : c.sysfnAddr + 1 < c.scratchAddr ∨ c.scratchAddr + 7 < c.sysfnAddr
  vectorOutside : ∀ k < 2, ∀ a : Nat, a = (c.irqVectorAddr.toNat + k) % memSize →
    (a < c.sysfnAddr ∨ c.sysfnAddr + 1 < a) ∧ (a < c.scratchAddr ∨ c.scratchAddr + 7 < a)
  stride : 1 ≤ c.sysStride
  slotRange : c.sysBase + c.sysStride * (c.nslots - 1) ≤ 0xFFFF

/-- The default SYS call table (43_sys.md R218). -/
def Config.defaultSlots : List Slot :=
  [⟨"SYS_Placeholder", 0, .placeholder, -10⟩, ⟨"SYS_RunSecondary", 0, .runSecondary, -12⟩,
   ⟨"SYS_Multiply16", 6, .multiply16, -20⟩, ⟨"SYS_CopyBytes", 10, .copyBytes, -24⟩]
    ++ List.replicate 12 ⟨"SYS_Placeholder", 0, .placeholder, -10⟩

/-- The defaults of 00_scope.md R7, 30_encoding.md R96, R98, R103 and 43_sys.md R218. -/
def Config.default : Config where
  wT := 8
  ovhP := 14
  ovhS := 16
  maxtP := 14
  maxtS := 15
  costP :=
    { ldi := 8, ldwi := 10, ld := 11, ldw := 10, st := 8, stw := 10, addw := 14, subw := 14, bra := 7,
      beq := 14, bne := 14, blt := 14, bge := 14, bgt := 14, ble := 14, call := 13, ret := 8, push := 13,
      pop := 13, lup := 13 }
  costX := { negw := 12, addi := 14, subi := 14, bral := 14, bnel := 14, beql := 14 }
  rtiExtra := 2
  costRti := 16
  fdCost := { cheap := 8, medium := 11, expensive := 21 }
  expExtraS := 6
  exCost :=
    { lda := 7, ldx := 7, ldy := 7, sta := 7, stx := 7, sty := 7, adc := 13, sbc := 14, cmp := 12,
      inx := 6, iny := 6, dex := 6, dey := 6, tax := 6, tay := 6, txa := 6, tya := 6, clc := 5, sec := 5,
      pha := 8, pla := 9, php := 15, plp := 15, bpl := 8, bmi := 8, bvc := 8, bvs := 8, bcc := 8, bcs := 8,
      bne := 8, beq := 8, jmp := 6, nop := 4, brk := 10 }
  sysfnAddr := 0x0022
  scratchAddr := 0x0024
  irqVectorAddr := 0x01F6#16
  resetPc := 0x0200#16
  sysBase := 0xE000
  sysStride := 0x0010
  slots := Config.defaultSlots
  ros := []

/-! ### The native port (43_sys.md R214, R215) -/

/-- What a native routine is called with (43_sys.md R215): the registers it may read, SEL, and the configuration, ROS
among it. T, the save area, INSVC and RUN are not in it, and memory is read byte by byte while the routine runs. -/
structure NativeView where
  pc : Word
  ac : Word
  lr : Word
  sp : Byte
  tmp : Byte
  scratch : List Byte
  sysfn : Word
  sel : Byte
  cfg : Config
  deriving DecidableEq, Repr

/-- The two entries of the secondary interpreter that a routine can hand control to: SEL <- 0x01 or SEL <- 0x02
(10_state.md R30, R31; 43_sys.md R215). -/
inductive HandOver where
  | fetch
  | execute
  deriving DecidableEq, Repr

/-- What a native routine leaves when it returns (43_sys.md R215, R216): PC, AC, LR, SP and TMP, whether and where it
hands control to the secondary interpreter, and the R it reports. -/
structure NativeResult where
  pc : Word
  ac : Word
  lr : Word
  sp : Byte
  tmp : Byte
  handOver : Option HandOver
  report : Int
  deriving DecidableEq, Repr, Inhabited

/-- What a native routine does between its call and its return (43_sys.md R214, R215): MemRead, what follows depending
on the byte read; MemWrite; a write of SCRATCH[k] or of SYSFN; and the return. The type has finite runs only, since
every routine returns. -/
inductive NativeProgram where
  | read (addr : Word) (next : Byte → NativeProgram)
  | write (addr : Word) (v : Byte) (next : NativeProgram)
  | writeScratch (k : Fin 8) (v : Byte) (next : NativeProgram)
  | writeSysfn (v : Word) (next : NativeProgram)
  | done (result : NativeResult)
  deriving Inhabited

/-- FREE VALUE (log entry 6): what a configured native routine that is none of the four reference routines does. The
spec bounds it by the contract of 43_sys.md R215 and gives it no other meaning. -/
opaque nativeRoutine : Nat → NativeView → NativeProgram

end Sys2Proof
end

