-- ==== Sys2Proof/Machine/State.lean ====
section
/-! DEFINITION. The machine's state as plain data (10_state.md R20), the host's commands and their answers
(40_scheduler_dispatch.md R120, R129), the reasons a step can stop (60_exceptions.md R345), and the state after
reset (10_state.md R40). -/

namespace Sys2Proof.Machine

/-- SCRATCH[0..7] (10_state.md R26), which are also the secondary interpreter's registers (R28):
ADL, ADH, IR, P, QZ, QN, X, Y in this order. -/
structure Scratch where
  b0 : Byte
  b1 : Byte
  b2 : Byte
  b3 : Byte
  b4 : Byte
  b5 : Byte
  b6 : Byte
  b7 : Byte
  deriving DecidableEq, Repr

/-- RUN (10_state.md R38). -/
inductive Run where
  | idle
  | running
  deriving DecidableEq, Repr

/-- Which interpreter a selector value makes active (10_state.md R31). -/
inductive Interp where
  | primary
  | secondary
  deriving DecidableEq, Repr

/-- The three deferrals (40_scheduler_dispatch.md R128). -/
inductive DeferReason where
  | sys
  | rti
  | decode
  deriving DecidableEq, Repr

/-- The exit reasons of a slice (40_scheduler_dispatch.md R129); the reason FAULT is the `fault` outcome. -/
inductive ExitReason where
  | exhausted
  | switched
  | deferred (r : DeferReason)
  deriving DecidableEq, Repr

/-- The argument of START_SLICE: a number of host cycles, or the token UNBOUNDED (40_scheduler_dispatch.md R120). -/
inductive Budget where
  | cycles (n : Nat)
  | unbounded
  deriving DecidableEq, Repr

/-- The host's commands (40_scheduler_dispatch.md R120). -/
inductive Command where
  | reset
  | irqCheck
  | startSlice (budget : Budget)
  | hostRead (addr : Word)
  | hostWrite (addr : Word) (v : Byte)
  deriving DecidableEq, Repr

/-- What a command returns (40_scheduler_dispatch.md R120): IRQ_CHECK whether it redirected, START_SLICE
(exit reason, cycles_consumed), HOST_READ a byte; RESET and HOST_WRITE nothing. -/
inductive Answer where
  | irqChecked (redirected : Bool)
  | sliceExit (reason : ExitReason) (cyclesConsumed : Nat)
  | byteRead (v : Byte)
  deriving DecidableEq, Repr

/-- The machine's state. -/
structure State where
  /-- the implementation parameters: configuration, written by no rule (10_state.md R39) -/
  cfg : Config
  /-- PC (10_state.md R21) -/
  pc : Word
  /-- AC; AC[7:0] is the secondary A (10_state.md R22, R28) -/
  ac : Word
  /-- LR, also the secondary program counter (10_state.md R23, R28) -/
  lr : Word
  /-- SP (10_state.md R24) -/
  sp : Byte
  /-- TMP (10_state.md R25) -/
  tmp : Byte
  /-- SCRATCH[0..7] (10_state.md R26, R28) -/
  scratch : Scratch
  /-- SYSFN (10_state.md R27) -/
  sysfn : Word
  /-- SEL (10_state.md R30) -/
  sel : Byte
  /-- T, the tick countdown, a signed number of W_T bits (10_state.md R32) -/
  t : Int
  /-- IPC of the interrupt save area (10_state.md R33) -/
  ipc : Word
  /-- IAC of the interrupt save area (10_state.md R33) -/
  iac : Word
  /-- ISEL of the interrupt save area (10_state.md R33) -/
  isel : Byte
  /-- INSVC, interrupt in service (10_state.md R34) -/
  insvc : Bool
  /-- RUN (10_state.md R38) -/
  run : Run
  /-- M, the bytes of data memory that hold a value, by rising address (20_memory.md R61) -/
  mem : List Host.Cell
  /-- the model's own: the N of the slice in progress (40_scheduler_dispatch.md R129, R137) -/
  sliceN : Nat
  /-- the model's own: the commands the host has yet to issue, in order (40_scheduler_dispatch.md R121) -/
  pending : List Command
  /-- the model's own: what the command issued last has returned, if it has (40_scheduler_dispatch.md R120) -/
  answer : Option Answer
  deriving DecidableEq, Repr

/-- Why the machine stops: the ten reasons of 60_exceptions.md R345, each a point at which the spec says the
hardware's behaviour is unspecified and the model must stop. All are SAFE: nothing is claimed of what follows. -/
inductive Fault where
  /-- a START_SLICE or a dispatch step found SEL outside 0x00, 0x01, 0x02 (10_state.md R30); safe -/
  | selReserved
  /-- START_SLICE with an N outside 40_scheduler_dispatch.md R123; safe -/
  | budgetPrecondition
  /-- a read of a memory byte that holds no value (10_state.md R41, 20_memory.md R62); safe -/
  | readUnwritten
  /-- a primary opcode 0x00 or 0x18 to 0xFF (41_primary.md R174); safe -/
  | illegalPrimaryOpcode
  /-- an extended opcode 0x00 or 0x07 to 0xFF (42_extended.md R197); safe -/
  | illegalExtendedOpcode
  /-- SYS with a positive operand (43_sys.md R210, 30_encoding.md R107); safe -/
  | sysOperandReserved
  /-- an admitted SYS whose SYSFN is no slot's address (43_sys.md R214); safe -/
  | sysfnNotASlot
  /-- an admitted SYS that declares less than its slot needs (43_sys.md R211); safe -/
  | sysUnderdeclared
  /-- a native routine whose report is outside 43_sys.md R217; safe -/
  | overrun
  /-- an admitted RTI with INSVC = 0 (60_exceptions.md R338); safe -/
  | rtiOutsideHandler
  deriving DecidableEq, Repr

/-- Why the model gives no meaning. Raised by an arm of `exec` only; safe. No arm raises it. -/
inductive Refusal where
  /-- the instruction has no meaning in this model yet; safe -/
  | notModelled (mnemonic : String)
  deriving DecidableEq, Repr

/-- The machine right after reset (10_state.md R40): PC = RESET_PC, SEL = 0x00, INSVC = 0, SP = 0x00, RUN = IDLE,
and no byte of memory holding a value. Every other register is unspecified there; here it is zero
(DESIGN CHOICE, log entry 1). -/
def State.reset : State where
  cfg := Config.default
  pc := Config.default.resetPc
  ac := 0x0000#16
  lr := 0x0000#16
  sp := 0x00#8
  tmp := 0x00#8
  scratch := ⟨0x00#8, 0x00#8, 0x00#8, 0x00#8, 0x00#8, 0x00#8, 0x00#8, 0x00#8⟩
  sysfn := 0x0000#16
  sel := 0x00#8
  t := 0
  ipc := 0x0000#16
  iac := 0x0000#16
  isel := 0x00#8
  insvc := false
  run := .idle
  mem := []
  sliceN := 0
  pending := []
  answer := none

end Sys2Proof.Machine
end

