-- ==== Sys2Proof/Machine/Memory.lean ====
section
/-! DEFINITION. Data memory as a list of (address, byte) pairs in one canonical form: addresses strictly rising.
A byte that is not listed holds no value (10_state.md R40, R41; log entry 2). -/

namespace Sys2Proof.Machine

/-- Data memory: the bytes that hold a value. -/
abbrev Memory := List Host.Cell

/-- What an unlisted address reads as: no value (10_state.md R41; log entry 2). -/
def Memory.unlisted : Option Byte := none

/-- The byte at an address, if it holds a value. -/
def Memory.read : Memory → Nat → Option Byte
  | [], _ => Memory.unlisted
  | (a, v) :: m, k => if a = k then some v else Memory.read m k

/-- Store a byte at an address, keeping the canonical form. -/
def Memory.write : Memory → Nat → Byte → Memory
  | [], k, v => [(k, v)]
  | (a, w) :: m, k, v =>
    if k < a then (k, v) :: (a, w) :: m
    else if k = a then (a, v) :: m
    else (a, w) :: Memory.write m k v

/-- The canonical form: addresses strictly rising and inside the 2^16 bytes of M (20_memory.md R61). -/
abbrev Memory.wf (m : Memory) : Prop :=
  m.Pairwise (fun x y => x.1 < y.1) ∧ ∀ c ∈ m, c.1 < memSize

end Sys2Proof.Machine
end

