-- ==== Sys2Proof/Machine/Ops.lean ====
section
/-! DEFINITION. The named operations every meaning is built from: register updates, MemRead and MemWrite through the
register windows (20_memory.md), the stack, the tick accounting, deferral and slice exit
(40_scheduler_dispatch.md), interrupt entry and return (60_exceptions.md), and the shape of a primary step. -/

namespace Sys2Proof.Machine

/-! ### Register updates -/

namespace State

def setPc (s : State) (v : Word) : State := { s with pc := v }
def setAc (s : State) (v : Word) : State := { s with ac := v }
def setLr (s : State) (v : Word) : State := { s with lr := v }
def setSp (s : State) (v : Byte) : State := { s with sp := v }
def setTmp (s : State) (v : Byte) : State := { s with tmp := v }
def setScratch (s : State) (v : Scratch) : State := { s with scratch := v }
def setSysfn (s : State) (v : Word) : State := { s with sysfn := v }
def setSel (s : State) (v : Byte) : State := { s with sel := v }
def setT (s : State) (v : Int) : State := { s with t := v }
def setRun (s : State) (v : Run) : State := { s with run := v }
def setMem (s : State) (v : Memory) : State := { s with mem := v }
def setAnswer (s : State) (v : Option Answer) : State := { s with answer := v }

end State

/-! ### The selector (10_state.md R30, R31) -/

/-- SEL_P: the primary interpreter is active. -/
def selP : Byte := 0x00#8

/-- SEL_S_FETCH: the next step is the secondary Fetch plus Decode. -/
def selSFetch : Byte := 0x01#8

/-- SEL_S_EXEC: the next step is the secondary Execute of the latched instruction. -/
def selSExec : Byte := 0x02#8

/-- `interp(SEL)`; `none` for the reserved values (10_state.md R31). -/
def interp (sel : Byte) : Option Interp :=
  if sel = selP then some .primary
  else if sel = selSFetch ∨ sel = selSExec then some .secondary
  else none

/-- OVH[i] (40_scheduler_dispatch.md R122). -/
def overhead (c : Config) : Interp → Nat
  | .primary => c.ovhP
  | .secondary => c.ovhS

/-- MAXT[i] (40_scheduler_dispatch.md R122). -/
def reserve (c : Config) : Interp → Nat
  | .primary => c.maxtP
  | .secondary => c.maxtS

/-! ### SCRATCH and the secondary registers in it (10_state.md R26, R28) -/

/-- SCRATCH[k]. -/
def Scratch.get (x : Scratch) (k : Nat) : Byte :=
  match k with
  | 0 => x.b0
  | 1 => x.b1
  | 2 => x.b2
  | 3 => x.b3
  | 4 => x.b4
  | 5 => x.b5
  | 6 => x.b6
  | _ => x.b7

/-- SCRATCH[k] <- v. -/
def Scratch.set (x : Scratch) (k : Nat) (v : Byte) : Scratch :=
  match k with
  | 0 => { x with b0 := v }
  | 1 => { x with b1 := v }
  | 2 => { x with b2 := v }
  | 3 => { x with b3 := v }
  | 4 => { x with b4 := v }
  | 5 => { x with b5 := v }
  | 6 => { x with b6 := v }
  | _ => { x with b7 := v }

/-- SCRATCH as a list, for the view of a native routine. -/
def Scratch.bytes (x : Scratch) : List Byte := [x.b0, x.b1, x.b2, x.b3, x.b4, x.b5, x.b6, x.b7]

namespace State

/-- ADL = SCRATCH[0]. -/
def adl (s : State) : Byte := s.scratch.b0
/-- ADH = SCRATCH[1]. -/
def adh (s : State) : Byte := s.scratch.b1
/-- IR = SCRATCH[2]. -/
def ir (s : State) : Byte := s.scratch.b2
/-- P = SCRATCH[3]. -/
def p (s : State) : Byte := s.scratch.b3
/-- QZ = SCRATCH[4]. -/
def qz (s : State) : Byte := s.scratch.b4
/-- QN = SCRATCH[5]. -/
def qn (s : State) : Byte := s.scratch.b5
/-- X = SCRATCH[6]. -/
def x (s : State) : Byte := s.scratch.b6
/-- Y = SCRATCH[7]. -/
def y (s : State) : Byte := s.scratch.b7
/-- A = AC[7:0]. -/
def a (s : State) : Byte := loByte s.ac
/-- AD = {ADH, ADL}. -/
def ad (s : State) : Word := mkWord s.adh s.adl

/-- AD <- v: ADL <- v[7:0], ADH <- v[15:8]. -/
def setAd (s : State) (v : Word) : State :=
  s.setScratch { s.scratch with b0 := loByte v, b1 := hiByte v }
def setIr (s : State) (v : Byte) : State := s.setScratch { s.scratch with b2 := v }
def setP (s : State) (v : Byte) : State := s.setScratch { s.scratch with b3 := v }
/-- The two derived flag bytes QZ and QN. -/
def setQ (s : State) (z n : Byte) : State := s.setScratch { s.scratch with b4 := z, b5 := n }
def setX (s : State) (v : Byte) : State := s.setScratch { s.scratch with b6 := v }
def setY (s : State) (v : Byte) : State := s.setScratch { s.scratch with b7 := v }
/-- `A <- v` means AC <- {AC[15:8], v} (44_secondary.md R254). -/
def setA (s : State) (v : Byte) : State := s.setAc (mkWord (hiByte s.ac) v)

/-! ### MemRead and MemWrite (20_memory.md R62 to R66) -/

/-- The address lies in the two-byte SYSFN window (20_memory.md R66). -/
def inSysfnWindow (c : Config) (addr : Word) : Bool :=
  decide (c.sysfnAddr ≤ addr.toNat ∧ addr.toNat ≤ c.sysfnAddr + 1)

/-- The address lies in the eight-byte SCRATCH window (20_memory.md R66). -/
def inScratchWindow (c : Config) (addr : Word) : Bool :=
  decide (c.scratchAddr ≤ addr.toNat ∧ addr.toNat ≤ c.scratchAddr + 7)

/-- `MemRead(addr, 1)`; `none` for a byte that holds no value (20_memory.md R62). -/
def memRead (s : State) (addr : Word) : Option Byte :=
  if inSysfnWindow s.cfg addr then
    some (if addr.toNat = s.cfg.sysfnAddr then loByte s.sysfn else hiByte s.sysfn)
  else if inScratchWindow s.cfg addr then some (s.scratch.get (addr.toNat - s.cfg.scratchAddr))
  else Memory.read s.mem addr.toNat

/-- `MemWrite(addr, 1, v)` (20_memory.md R63). -/
def memWrite (s : State) (addr : Word) (v : Byte) : State :=
  if inSysfnWindow s.cfg addr then
    s.setSysfn (if addr.toNat = s.cfg.sysfnAddr then mkWord (hiByte s.sysfn) v else mkWord v (loByte s.sysfn))
  else if inScratchWindow s.cfg addr then s.setScratch (s.scratch.set (addr.toNat - s.cfg.scratchAddr) v)
  else s.setMem (Memory.write s.mem addr.toNat v)

/-- A byte read by a rule: `fault(ReadUnwritten)` where it holds no value (20_memory.md R62). -/
def readByte (s : State) (addr : Word) : Except Fault Byte :=
  match s.memRead addr with
  | some v => .ok v
  | none => .error .readUnwritten

/-- `MemRead(addr, 2)`, low byte first, the second address mod 2^16 (20_memory.md R64). -/
def readWord (s : State) (addr : Word) : Except Fault Word := do
  let lo ← s.readByte addr
  let hi ← s.readByte (addr + 1)
  .ok (mkWord hi lo)

/-- `ZpRead2(a)`, wrapping inside the zero page (20_memory.md R65). -/
def zpRead2 (s : State) (a : Byte) : Except Fault Word := do
  let lo ← s.readByte (zextWord a)
  let hi ← s.readByte (zextWord (a + 1))
  .ok (mkWord hi lo)

/-- `ZpWrite2(a, v)`, low byte first, wrapping inside the zero page (20_memory.md R65). -/
def zpWrite2 (s : State) (a : Byte) (v : Word) : State :=
  (s.memWrite (zextWord a) (loByte v)).memWrite (zextWord (a + 1)) (hiByte v)

/-- `RosRead(addr)`: a listed byte, else 0x00; it cannot fault (20_memory.md R68). -/
def rosRead (s : State) (addr : Word) : Byte := (Memory.read s.cfg.ros addr.toNat).getD 0x00#8

/-! ### The stack (20_memory.md R67) -/

/-- `{STACK_PAGE, SP}`. -/
def stackAddr (sp : Byte) : Word := mkWord stackPage sp

/-- `Push8(v)`. -/
def push8 (s : State) (v : Byte) : State :=
  (s.setSp (s.sp - 1)).memWrite (stackAddr (s.sp - 1)) v

/-- `Pull8()`: the byte, and the state with SP advanced. -/
def pull8 (s : State) : Except Fault (Byte × State) := do
  let v ← s.readByte (stackAddr s.sp)
  .ok (v, s.setSp (s.sp + 1))

/-- `Push16(v)`: the low byte at the new SP, the high byte above it. -/
def push16 (s : State) (v : Word) : State :=
  ((s.setSp (s.sp - 2)).memWrite (stackAddr (s.sp - 2)) (loByte v)).memWrite (stackAddr (s.sp - 1)) (hiByte v)

/-- `Pull16()`: the word, and the state with SP advanced. -/
def pull16 (s : State) : Except Fault (Word × State) := do
  let lo ← s.readByte (stackAddr s.sp)
  let hi ← s.readByte (stackAddr (s.sp + 1))
  .ok (mkWord hi lo, s.setSp (s.sp + 2))

/-! ### Accounting, slice exit, deferral (40_scheduler_dispatch.md R127 to R129) -/

/-- T <- T - c (40_scheduler_dispatch.md R127). -/
def charge (s : State) (c : Nat) : State := s.setT (s.t - c)

/-- Slice exit: RUN <- IDLE and START_SLICE answers (reason, N); no register changes (40_scheduler_dispatch.md R129). -/
def exitSlice (s : State) (reason : ExitReason) : State :=
  (s.setRun .idle).setAnswer (some (.sliceExit reason s.sliceN))

/-- `defer(reason)`: the slice exits with no charge; the state handed in is the one before the step, so the
program position is the deferred instruction's (40_scheduler_dispatch.md R128). -/
def defer (s : State) (reason : DeferReason) : State := s.exitSlice (.deferred reason)

/-! ### Interrupt entry and return (60_exceptions.md R334, R338) -/

/-- Interrupt entry: the one way a context is saved (60_exceptions.md R334). -/
def enterInterrupt (s : State) (vector : Word) : State :=
  { s with ipc := s.pc, iac := s.ac, isel := s.sel, pc := vector, sel := selP, insvc := true }

/-- Interrupt return: PC, AC, SEL and INSVC, and nothing else (60_exceptions.md R338). -/
def returnFromInterrupt (s : State) : State :=
  { s with pc := s.ipc, ac := s.iac, sel := s.isel, insvc := false }

end State

/-! ### The shape of a step -/

/-- A rule's end: its effect is charged, or a fault stops the machine (00_scope.md R9). -/
def chargeResult (cost : Nat) : Except Fault State → Host.Outcome State Fault Refusal
  | .ok t => .next (t.charge cost)
  | .error f => .fault f

/-- The shape of every primary and extended instruction: PC <- PCn, then the effect, then charge(cost)
(41_primary.md R150, 42_extended.md R190). -/
def primaryStep (len : Word) (cost : Nat) (effect : State → Except Fault State) (s : State) :
    Host.Outcome State Fault Refusal :=
  chargeResult cost (effect (s.setPc (s.pc + len)))

end Sys2Proof.Machine
end

