-- ==== Sys2Proof/Machine/Flags.lean ====
section
/-! DEFINITION. Carry, overflow and flags: the sign-comparison carry (00_scope.md R10), the 16-bit sums built on it
(41_primary.md R157, R158), the primary conditions (R172), and the secondary flags, live and packed
(10_state.md R29, 44_secondary.md R255). -/

namespace Sys2Proof.Machine

/-- `carry8(a, b, s) = ((a AND b) OR ((a OR b) AND NOT_8(s)))[7]` (00_scope.md R10). -/
def carry8 (a b s : Byte) : Bool := ((a &&& b) ||| ((a ||| b) &&& ~~~s)).getLsbD 7

/-- The byte addition a + b + c (00_scope.md R10). -/
def addByte (a b : Byte) (c : Bool) : Byte := a + b + bitByte c

/-- The 16-bit sum as two byte additions joined by carry8 (41_primary.md R157). -/
def addBytes (v w : Word) (c : Bool) : Word :=
  let lo := addByte (loByte v) (loByte w) c
  let hi := addByte (hiByte v) (hiByte w) (carry8 (loByte v) (loByte w) lo)
  mkWord hi lo

/-- AC + w as ADDW computes it (41_primary.md R157). -/
def addWord (v w : Word) : Word := addBytes v w false

/-- AC - w as SUBW computes it: the complement with carry in 1 (41_primary.md R158). -/
def subWord (v w : Word) : Word := addBytes v (~~~w) true

/-! ### Conditions of the primary branches (41_primary.md R172) -/

/-- S = AC[15]. -/
def acNegative (ac : Word) : Bool := (hiByte ac).getLsbD 7

/-- Z: the high byte and the low byte are both 0x00. -/
def acZero (ac : Word) : Bool := hiByte ac == 0x00#8 && loByte ac == 0x00#8

/-! ### Flags of the secondary interpreter (10_state.md R29) -/

namespace State

/-- N = QN[7]. -/
def flagN (s : State) : Bool := s.qn.getLsbD 7
/-- Z: QZ = 0. -/
def flagZ (s : State) : Bool := s.qz == 0x00#8
/-- C = P[0]. -/
def flagC (s : State) : Bool := s.p.getLsbD 0
/-- V = P[6]. -/
def flagV (s : State) : Bool := s.p.getLsbD 6

/-- `SetZN(v)`: QZ <- v, QN <- v (44_secondary.md R255). -/
def setZN (s : State) (v : Byte) : State := s.setQ v v

end State

/-- V of an addition: `(NOT_8(A XOR m) AND (A XOR r))[7]` (44_secondary.md R262). -/
def overflow8 (a m r : Byte) : Bool := (~~~(a ^^^ m) &&& (a ^^^ r)).getLsbD 7

/-- P with C and V replaced: `(P AND 0xBE) OR C OR (V * 0x40)` (44_secondary.md R262). -/
def withCV (p : Byte) (c v : Bool) : Byte := (p &&& 0xBE#8) ||| bitByte c ||| (if v then 0x40#8 else 0x00#8)

/-- P with C replaced: `(P AND 0xFE) OR C` (44_secondary.md R264, R273, R274). -/
def withC (p : Byte) (c : Bool) : Byte := (p &&& 0xFE#8) ||| bitByte c

/-- The canonical flags byte that PHP pushes (44_secondary.md R255). -/
def packFlags (p qz qn : Byte) : Byte :=
  (qn &&& 0x80#8) ||| (p &&& 0x40#8) ||| 0x30#8 ||| (p &&& 0x0C#8) |||
    (if qz = 0x00#8 then 0x02#8 else 0x00#8) ||| (p &&& 0x01#8)

/-- QN unpacked from a pulled byte: `v AND 0x80` (44_secondary.md R255). -/
def unpackQN (v : Byte) : Byte := v &&& 0x80#8

/-- QZ unpacked from a pulled byte: 0x00 if v[1] = 1, else 0x01 (44_secondary.md R255). -/
def unpackQZ (v : Byte) : Byte := if v.getLsbD 1 then 0x00#8 else 0x01#8

end Sys2Proof.Machine
end

