-- ==== Sys2Proof/Machine/PrimaryControl.lean ====
section
/-! DEFINITION. The primary control-flow instructions: branches, call, return and the user-mode stack
(41_primary.md R159 to R169, R172). -/

namespace Sys2Proof.Machine

/-- PC <- target if the condition holds, else PC stays PCn (41_primary.md R160). -/
def branchTo (cond : Bool) (target : Word) (s : State) : State := if cond then s.setPc target else s

/-- BRA: PC <- {e, d} (41_primary.md R159). -/
def execBra (target : Word) (s : State) : Host.Outcome State Fault Refusal :=
  primaryStep 3 s.cfg.costP.bra (fun u => .ok (branchTo true target u)) s

/-- BEQ: if Z = 1 then PC <- {e, d} (41_primary.md R160, R172). -/
def execBeq (target : Word) (s : State) : Host.Outcome State Fault Refusal :=
  primaryStep 3 s.cfg.costP.beq (fun u => .ok (branchTo (acZero u.ac) target u)) s

/-- BNE: if Z = 0 then PC <- {e, d} (41_primary.md R161, R172). -/
def execBne (target : Word) (s : State) : Host.Outcome State Fault Refusal :=
  primaryStep 3 s.cfg.costP.bne (fun u => .ok (branchTo (!acZero u.ac) target u)) s

/-- BLT: if S = 1 then PC <- {e, d} (41_primary.md R162, R172). -/
def execBlt (target : Word) (s : State) : Host.Outcome State Fault Refusal :=
  primaryStep 3 s.cfg.costP.blt (fun u => .ok (branchTo (acNegative u.ac) target u)) s

/-- BGE: if S = 0 then PC <- {e, d} (41_primary.md R163, R172). -/
def execBge (target : Word) (s : State) : Host.Outcome State Fault Refusal :=
  primaryStep 3 s.cfg.costP.bge (fun u => .ok (branchTo (!acNegative u.ac) target u)) s

/-- BGT: if S = 0 and Z = 0 then PC <- {e, d} (41_primary.md R164, R172). -/
def execBgt (target : Word) (s : State) : Host.Outcome State Fault Refusal :=
  primaryStep 3 s.cfg.costP.bgt (fun u => .ok (branchTo (!acNegative u.ac && !acZero u.ac) target u)) s

/-- BLE: if S = 1 or Z = 1 then PC <- {e, d} (41_primary.md R165, R172). -/
def execBle (target : Word) (s : State) : Host.Outcome State Fault Refusal :=
  primaryStep 3 s.cfg.costP.ble (fun u => .ok (branchTo (acNegative u.ac || acZero u.ac) target u)) s

/-- CALL: LR <- PCn; PC <- {e, d} (41_primary.md R166). -/
def execCall (target : Word) (s : State) : Host.Outcome State Fault Refusal :=
  primaryStep 3 s.cfg.costP.call (fun u => .ok ((u.setLr u.pc).setPc target)) s

/-- RET: PC <- LR (41_primary.md R167). -/
def execRet (s : State) : Host.Outcome State Fault Refusal :=
  primaryStep 1 s.cfg.costP.ret (fun u => .ok (u.setPc u.lr)) s

/-- PUSH: Push16(LR) (41_primary.md R168). -/
def execPush (s : State) : Host.Outcome State Fault Refusal :=
  primaryStep 1 s.cfg.costP.push (fun u => .ok (u.push16 u.lr)) s

/-- POP: LR <- Pull16() (41_primary.md R169). -/
def execPop (s : State) : Host.Outcome State Fault Refusal :=
  primaryStep 1 s.cfg.costP.pop (fun u => do
    let (w, v) ← u.pull16
    .ok (v.setLr w)) s

end Sys2Proof.Machine
end

