-- ==== Sys2Proof/Machine/Extended.lean ====
section
/-! DEFINITION. The Extended-Opcode Page (42_extended.md R190 to R196). The length of an instruction includes the
escape byte, and one charge is made for the whole of it. -/

namespace Sys2Proof.Machine

/-- NEGW: AC <- (0 - AC) mod 2^16 (42_extended.md R191). -/
def execNegw (s : State) : Host.Outcome State Fault Refusal :=
  primaryStep 2 s.cfg.costX.negw (fun u => .ok (u.setAc (0 - u.ac))) s

/-- ADDI: AC <- AC + zext_16(b2), as ADDW (42_extended.md R192). -/
def execAddi (b : Byte) (s : State) : Host.Outcome State Fault Refusal :=
  primaryStep 3 s.cfg.costX.addi (fun u => .ok (u.setAc (addWord u.ac (zextWord b)))) s

/-- SUBI: AC <- AC - zext_16(b2), as SUBW (42_extended.md R193). -/
def execSubi (b : Byte) (s : State) : Host.Outcome State Fault Refusal :=
  primaryStep 3 s.cfg.costX.subi (fun u => .ok (u.setAc (subWord u.ac (zextWord b)))) s

/-- BRAL: PC <- PCn + rel (42_extended.md R194). -/
def execBral (rel : Word) (s : State) : Host.Outcome State Fault Refusal :=
  primaryStep 4 s.cfg.costX.bral (fun u => .ok (branchTo true (u.pc + rel) u)) s

/-- BNEL: if Z = 0 then PC <- PCn + rel (42_extended.md R195). -/
def execBnel (rel : Word) (s : State) : Host.Outcome State Fault Refusal :=
  primaryStep 4 s.cfg.costX.bnel (fun u => .ok (branchTo (!acZero u.ac) (u.pc + rel) u)) s

/-- BEQL: if Z = 1 then PC <- PCn + rel (42_extended.md R196). -/
def execBeql (rel : Word) (s : State) : Host.Outcome State Fault Refusal :=
  primaryStep 4 s.cfg.costX.beql (fun u => .ok (branchTo (acZero u.ac) (u.pc + rel) u)) s

end Sys2Proof.Machine
end

