-- ==== Sys2Proof/Machine/Interrupt.lean ====
section
/-! DEFINITION. RTI, the interrupt return instruction (60_exceptions.md R338, R339). -/

namespace Sys2Proof.Machine

/-- RTI: the admission on T - RTI_EXTRA, then INSVC, then the restore (60_exceptions.md R338). -/
def execRti (s : State) : Host.Outcome State Fault Refusal :=
  if s.t - s.cfg.rtiExtra < 0 then .next (s.defer .rti)
  else
    primaryStep 1 s.cfg.costRti (fun u =>
      if u.insvc then .ok u.returnFromInterrupt else .error .rtiOutsideHandler) s

end Sys2Proof.Machine
end

