-- ==== Sys2Proof/Machine/Primary.lean ====
section
/-! DEFINITION. The primary data instructions: immediate loads, zero-page loads and stores, 16-bit add and subtract,
table lookup (41_primary.md R151 to R158, R170). -/

namespace Sys2Proof.Machine

/-- LDI: AC <- zext_16(d) (41_primary.md R151). -/
def execLdi (d : Byte) (s : State) : Host.Outcome State Fault Refusal :=
  primaryStep 2 s.cfg.costP.ldi (fun u => .ok (u.setAc (zextWord d))) s

/-- LDWI: AC <- {e, d} (41_primary.md R152). -/
def execLdwi (w : Word) (s : State) : Host.Outcome State Fault Refusal :=
  primaryStep 3 s.cfg.costP.ldwi (fun u => .ok (u.setAc w)) s

/-- LD: AC <- zext_16(MemRead({0x00, d}, 1)) (41_primary.md R153). -/
def execLd (a : Byte) (s : State) : Host.Outcome State Fault Refusal :=
  primaryStep 2 s.cfg.costP.ld (fun u => do
    let v ← u.readByte (zextWord a)
    .ok (u.setAc (zextWord v))) s

/-- LDW: AC <- ZpRead2(d) (41_primary.md R154). -/
def execLdw (a : Byte) (s : State) : Host.Outcome State Fault Refusal :=
  primaryStep 2 s.cfg.costP.ldw (fun u => do
    let w ← u.zpRead2 a
    .ok (u.setAc w)) s

/-- ST: MemWrite({0x00, d}, 1, AC[7:0]) (41_primary.md R155). -/
def execSt (a : Byte) (s : State) : Host.Outcome State Fault Refusal :=
  primaryStep 2 s.cfg.costP.st (fun u => .ok (u.memWrite (zextWord a) (loByte u.ac))) s

/-- STW: ZpWrite2(d, AC) (41_primary.md R156). -/
def execStw (a : Byte) (s : State) : Host.Outcome State Fault Refusal :=
  primaryStep 2 s.cfg.costP.stw (fun u => .ok (u.zpWrite2 a u.ac)) s

/-- ADDW: AC <- AC + ZpRead2(d), byte by byte with the sign-comparison carry (41_primary.md R157). -/
def execAddw (a : Byte) (s : State) : Host.Outcome State Fault Refusal :=
  primaryStep 2 s.cfg.costP.addw (fun u => do
    let w ← u.zpRead2 a
    .ok (u.setAc (addWord u.ac w))) s

/-- SUBW: AC <- AC - ZpRead2(d), the addition of the complement with carry in 1 (41_primary.md R158). -/
def execSubw (a : Byte) (s : State) : Host.Outcome State Fault Refusal :=
  primaryStep 2 s.cfg.costP.subw (fun u => do
    let w ← u.zpRead2 a
    .ok (u.setAc (subWord u.ac w))) s

/-- LUP: AC <- zext_16(RosRead(AC + zext_16(d))) (41_primary.md R170). -/
def execLup (d : Byte) (s : State) : Host.Outcome State Fault Refusal :=
  primaryStep 2 s.cfg.costP.lup (fun u => .ok (u.setAc (zextWord (u.rosRead (u.ac + zextWord d))))) s

end Sys2Proof.Machine
end

