-- ==== Sys2Proof/Machine/Operands.lean ====
section
/-! DEFINITION. The secondary interpreter's operand forms: the ten addressing modes with their classes, lengths and
effective addresses (44_secondary.md R242 to R253), and the two steps of a secondary instruction, Fetch plus
Decode (R241) and Execute (R254). -/

namespace Sys2Proof.Machine

/-- An addressing mode with the operand bytes that follow the opcode (30_encoding.md R99, R101). -/
inductive Mode where
  | implied
  | imm
  | rel
  | zp (b : Byte)
  | zpX (b : Byte)
  | abs (a : Word)
  | absX (a : Word)
  | absY (a : Word)
  | indX (b : Byte)
  | indY (b : Byte)
  deriving DecidableEq, Repr

/-- The mode classes (30_encoding.md R101). -/
inductive ModeClass where
  | cheap
  | medium
  | expensive
  deriving DecidableEq, Repr

/-- The class of a mode (44_secondary.md R242). -/
def Mode.cls : Mode → ModeClass
  | .implied | .imm | .rel => .cheap
  | .zp _ | .zpX _ => .medium
  | .abs _ | .absX _ | .absY _ | .indX _ | .indY _ => .expensive

/-- Operand bytes of a mode (44_secondary.md R242). -/
def Mode.operandBytes : Mode → Word
  | .implied => 0
  | .imm | .rel | .zp _ | .zpX _ | .indX _ | .indY _ => 1
  | .abs _ | .absX _ | .absY _ => 2

/-- FD_COST of a class (44_secondary.md R242). -/
def decodeCost (c : Config) : ModeClass → Nat
  | .cheap => c.fdCost.cheap
  | .medium => c.fdCost.medium
  | .expensive => c.fdCost.expensive

/-- The admission test of an expensive decode has failed: T - EXP_EXTRA_S < 0 (44_secondary.md R243). -/
def expensiveNotAdmitted (s : State) : Bool := decide (s.t - s.cfg.expExtraS < 0)

/-- A decode that defers: expensive and not admitted (44_secondary.md R241). -/
def decodeDeferred (s : State) (k : ModeClass) : Bool := k == .expensive && expensiveNotAdmitted s

/-- The effective address, `none` for the implied mode. The state is the one in which LR addresses the first
operand byte; pointers are read from the zero page and wrap inside it (44_secondary.md R244 to R253). -/
def effectiveAddress (s : State) : Mode → Except Fault (Option Word)
  | .implied => .ok none
  | .imm => .ok (some s.lr)
  | .rel => .ok (some s.lr)
  | .zp b => .ok (some (zextWord b))
  | .zpX b => .ok (some (zextWord (b + s.x)))
  | .abs a => .ok (some a)
  | .absX a => .ok (some (a + zextWord s.x))
  | .absY a => .ok (some (a + zextWord s.y))
  | .indX b => do
    let ptr ← s.zpRead2 (b + s.x)
    .ok (some ptr)
  | .indY b => do
    let ptr ← s.zpRead2 b
    .ok (some (ptr + zextWord s.y))

/-- ADL and ADH are written in every mode but the implied one (44_secondary.md R241). -/
def latchAddress (s : State) : Option Word → State
  | none => s
  | some addr => s.setAd addr

/-- The step S_FD of an instruction whose opcode and operand bytes are given: the admission of an expensive class,
then IR, then the effective address, then SEL <- 0x02 and the Decode cost (44_secondary.md R241, R243). -/
def fetchDecode (op : Byte) (m : Mode) (s : State) : Host.Outcome State Fault Refusal :=
  if decodeDeferred s m.cls then .next (s.defer .decode)
  else
    let s1 := (s.setLr (s.lr + 1)).setIr op
    chargeResult (decodeCost s.cfg m.cls) (do
      let addr ← effectiveAddress s1 m
      .ok ((latchAddress (s1.setLr (s1.lr + m.operandBytes)) addr).setSel selSExec))

/-- A secondary instruction is two steps (44_secondary.md R240): with SEL = 0x02 this is S_EX, which sets
SEL <- 0x01, has the operation's effect on the latched AD and charges EX_COST (R254); otherwise it is S_FD. -/
def secondaryStep (op : Byte) (m : Mode) (cost : Nat) (effect : State → Except Fault State) (s : State) :
    Host.Outcome State Fault Refusal :=
  if s.sel = selSExec then chargeResult cost (effect (s.setSel selSFetch))
  else fetchDecode op m s

/-- `m`, MemRead(AD, 1) (44_secondary.md R254). -/
def State.operand (s : State) : Except Fault Byte := s.readByte s.ad

end Sys2Proof.Machine
end

