-- ==== Sys2Proof/Machine/SecondaryArith.lean ====
section
/-! DEFINITION. The secondary arithmetic: ADC, SBC, CMP (44_secondary.md R262 to R264), always binary (R295). -/

namespace Sys2Proof.Machine

/-- The addition of ADC, on an operand already read: A, C, V and SetZN (44_secondary.md R262). -/
def addToA (s : State) (m : Byte) : State :=
  let r := addByte s.a m s.flagC
  ((s.setP (withCV s.p (carry8 s.a m r) (overflow8 s.a m r))).setA r).setZN r

/-- ADC (44_secondary.md R262). -/
def adcEffect (s : State) : Except Fault State := do
  let m ← s.operand
  .ok (addToA s m)

/-- SBC: ADC with NOT_8(m) for m throughout (44_secondary.md R263). -/
def sbcEffect (s : State) : Except Fault State := do
  let m ← s.operand
  .ok (addToA s (~~~m))

/-- CMP: SetZN(A - m), C <- A >= m unsigned; A and V unchanged (44_secondary.md R264). -/
def cmpEffect (s : State) : Except Fault State := do
  let m ← s.operand
  .ok ((s.setP (withC s.p (decide (m.toNat ≤ s.a.toNat)))).setZN (s.a - m))

/-- ADC immediate: add with carry (44_secondary.md R262). -/
def execAdcImm (_b : Byte) (s : State) : Host.Outcome State Fault Refusal :=
  secondaryStep 0x69#8 .imm s.cfg.exCost.adc adcEffect s

/-- ADC zero-page: add with carry (44_secondary.md R262). -/
def execAdcZp (b : Byte) (s : State) : Host.Outcome State Fault Refusal :=
  secondaryStep 0x65#8 (.zp b) s.cfg.exCost.adc adcEffect s

/-- ADC zero-page,X: add with carry (44_secondary.md R262). -/
def execAdcZpX (b : Byte) (s : State) : Host.Outcome State Fault Refusal :=
  secondaryStep 0x75#8 (.zpX b) s.cfg.exCost.adc adcEffect s

/-- ADC absolute: add with carry (44_secondary.md R262). -/
def execAdcAbs (a : Word) (s : State) : Host.Outcome State Fault Refusal :=
  secondaryStep 0x6D#8 (.abs a) s.cfg.exCost.adc adcEffect s

/-- ADC absolute,X: add with carry (44_secondary.md R262). -/
def execAdcAbsX (a : Word) (s : State) : Host.Outcome State Fault Refusal :=
  secondaryStep 0x7D#8 (.absX a) s.cfg.exCost.adc adcEffect s

/-- ADC absolute,Y: add with carry (44_secondary.md R262). -/
def execAdcAbsY (a : Word) (s : State) : Host.Outcome State Fault Refusal :=
  secondaryStep 0x79#8 (.absY a) s.cfg.exCost.adc adcEffect s

/-- ADC (zp,X): add with carry (44_secondary.md R262). -/
def execAdcIndX (b : Byte) (s : State) : Host.Outcome State Fault Refusal :=
  secondaryStep 0x61#8 (.indX b) s.cfg.exCost.adc adcEffect s

/-- ADC (zp),Y: add with carry (44_secondary.md R262). -/
def execAdcIndY (b : Byte) (s : State) : Host.Outcome State Fault Refusal :=
  secondaryStep 0x71#8 (.indY b) s.cfg.exCost.adc adcEffect s

/-- SBC immediate: subtract with carry (44_secondary.md R263). -/
def execSbcImm (_b : Byte) (s : State) : Host.Outcome State Fault Refusal :=
  secondaryStep 0xE9#8 .imm s.cfg.exCost.sbc sbcEffect s

/-- SBC zero-page: subtract with carry (44_secondary.md R263). -/
def execSbcZp (b : Byte) (s : State) : Host.Outcome State Fault Refusal :=
  secondaryStep 0xE5#8 (.zp b) s.cfg.exCost.sbc sbcEffect s

/-- SBC zero-page,X: subtract with carry (44_secondary.md R263). -/
def execSbcZpX (b : Byte) (s : State) : Host.Outcome State Fault Refusal :=
  secondaryStep 0xF5#8 (.zpX b) s.cfg.exCost.sbc sbcEffect s

/-- SBC absolute: subtract with carry (44_secondary.md R263). -/
def execSbcAbs (a : Word) (s : State) : Host.Outcome State Fault Refusal :=
  secondaryStep 0xED#8 (.abs a) s.cfg.exCost.sbc sbcEffect s

/-- SBC absolute,X: subtract with carry (44_secondary.md R263). -/
def execSbcAbsX (a : Word) (s : State) : Host.Outcome State Fault Refusal :=
  secondaryStep 0xFD#8 (.absX a) s.cfg.exCost.sbc sbcEffect s

/-- SBC absolute,Y: subtract with carry (44_secondary.md R263). -/
def execSbcAbsY (a : Word) (s : State) : Host.Outcome State Fault Refusal :=
  secondaryStep 0xF9#8 (.absY a) s.cfg.exCost.sbc sbcEffect s

/-- SBC (zp,X): subtract with carry (44_secondary.md R263). -/
def execSbcIndX (b : Byte) (s : State) : Host.Outcome State Fault Refusal :=
  secondaryStep 0xE1#8 (.indX b) s.cfg.exCost.sbc sbcEffect s

/-- SBC (zp),Y: subtract with carry (44_secondary.md R263). -/
def execSbcIndY (b : Byte) (s : State) : Host.Outcome State Fault Refusal :=
  secondaryStep 0xF1#8 (.indY b) s.cfg.exCost.sbc sbcEffect s

/-- CMP immediate: compare A (44_secondary.md R264). -/
def execCmpImm (_b : Byte) (s : State) : Host.Outcome State Fault Refusal :=
  secondaryStep 0xC9#8 .imm s.cfg.exCost.cmp cmpEffect s

/-- CMP zero-page: compare A (44_secondary.md R264). -/
def execCmpZp (b : Byte) (s : State) : Host.Outcome State Fault Refusal :=
  secondaryStep 0xC5#8 (.zp b) s.cfg.exCost.cmp cmpEffect s

/-- CMP absolute: compare A (44_secondary.md R264). -/
def execCmpAbs (a : Word) (s : State) : Host.Outcome State Fault Refusal :=
  secondaryStep 0xCD#8 (.abs a) s.cfg.exCost.cmp cmpEffect s

end Sys2Proof.Machine
end

