-- ==== Sys2Proof/Machine/SecondaryControl.lean ====
section
/-! DEFINITION. The secondary branches, JMP, NOP, BRK and the unimplemented-opcode escape
(44_secondary.md R279 to R291). -/

namespace Sys2Proof.Machine

/-- The common part of the branches: o <- MemRead(AD, 1); if the condition holds LR <- LR + signed_8(o)
(44_secondary.md R279). -/
def branchIf (cond : Bool) (s : State) : Except Fault State := do
  let o ← s.operand
  .ok (if cond then s.setLr (s.lr + sextWord o) else s)

/-- SEL <- 0x00 and nothing else: back to the primary interpreter (44_secondary.md R290, R291). -/
def leaveSecondary (s : State) : Except Fault State := .ok (s.setSel selP)

/-- JMP absolute: LR <- AD (44_secondary.md R288). -/
def execJmpAbs (a : Word) (s : State) : Host.Outcome State Fault Refusal :=
  secondaryStep 0x4C#8 (.abs a) s.cfg.exCost.jmp (fun u => .ok (u.setLr u.ad)) s

/-- NOP: nothing (44_secondary.md R289). -/
def execNop (s : State) : Host.Outcome State Fault Refusal :=
  secondaryStep 0xEA#8 .implied s.cfg.exCost.nop (fun u => .ok u) s

/-- BRK: SEL <- 0x00 (44_secondary.md R290). -/
def execBrk (s : State) : Host.Outcome State Fault Refusal :=
  secondaryStep 0x00#8 .implied s.cfg.exCost.brk leaveSecondary s

/-- BPL relative: taken when N = 0 (44_secondary.md R280). -/
def execBplRel (_b : Byte) (s : State) : Host.Outcome State Fault Refusal :=
  secondaryStep 0x10#8 .rel s.cfg.exCost.bpl (fun u => branchIf (!u.flagN) u) s

/-- BMI relative: taken when N = 1 (44_secondary.md R281). -/
def execBmiRel (_b : Byte) (s : State) : Host.Outcome State Fault Refusal :=
  secondaryStep 0x30#8 .rel s.cfg.exCost.bmi (fun u => branchIf (u.flagN) u) s

/-- BVC relative: taken when V = 0 (44_secondary.md R282). -/
def execBvcRel (_b : Byte) (s : State) : Host.Outcome State Fault Refusal :=
  secondaryStep 0x50#8 .rel s.cfg.exCost.bvc (fun u => branchIf (!u.flagV) u) s

/-- BVS relative: taken when V = 1 (44_secondary.md R283). -/
def execBvsRel (_b : Byte) (s : State) : Host.Outcome State Fault Refusal :=
  secondaryStep 0x70#8 .rel s.cfg.exCost.bvs (fun u => branchIf (u.flagV) u) s

/-- BCC relative: taken when C = 0 (44_secondary.md R284). -/
def execBccRel (_b : Byte) (s : State) : Host.Outcome State Fault Refusal :=
  secondaryStep 0x90#8 .rel s.cfg.exCost.bcc (fun u => branchIf (!u.flagC) u) s

/-- BCS relative: taken when C = 1 (44_secondary.md R285). -/
def execBcsRel (_b : Byte) (s : State) : Host.Outcome State Fault Refusal :=
  secondaryStep 0xB0#8 .rel s.cfg.exCost.bcs (fun u => branchIf (u.flagC) u) s

/-- BNE relative: taken when Z = 0 (44_secondary.md R286). -/
def execBneRel (_b : Byte) (s : State) : Host.Outcome State Fault Refusal :=
  secondaryStep 0xD0#8 .rel s.cfg.exCost.bne (fun u => branchIf (!u.flagZ) u) s

/-- BEQ relative: taken when Z = 1 (44_secondary.md R287). -/
def execBeqRel (_b : Byte) (s : State) : Host.Outcome State Fault Refusal :=
  secondaryStep 0xF0#8 .rel s.cfg.exCost.beq (fun u => branchIf (u.flagZ) u) s

/-- An unimplemented opcode: decoded as implied, executed exactly as BRK (44_secondary.md R291). -/
def execEsc (op : Byte) (s : State) : Host.Outcome State Fault Refusal :=
  secondaryStep op .implied s.cfg.exCost.brk leaveSecondary s

end Sys2Proof.Machine
end

