-- ==== Sys2Proof/Machine/SecondaryLoadStore.lean ====
section
/-! DEFINITION. The secondary loads and stores (44_secondary.md R256 to R261). -/

namespace Sys2Proof.Machine

/-- A <- m; SetZN(m) (44_secondary.md R256). -/
def loadA (s : State) : Except Fault State := do
  let m ← s.operand
  .ok ((s.setA m).setZN m)

/-- X <- m; SetZN(m) (44_secondary.md R257). -/
def loadX (s : State) : Except Fault State := do
  let m ← s.operand
  .ok ((s.setX m).setZN m)

/-- Y <- m; SetZN(m) (44_secondary.md R258). -/
def loadY (s : State) : Except Fault State := do
  let m ← s.operand
  .ok ((s.setY m).setZN m)

/-- MemWrite(AD, 1, A) (44_secondary.md R259). -/
def storeA (s : State) : Except Fault State := .ok (s.memWrite s.ad s.a)

/-- MemWrite(AD, 1, X) (44_secondary.md R260). -/
def storeX (s : State) : Except Fault State := .ok (s.memWrite s.ad s.x)

/-- MemWrite(AD, 1, Y) (44_secondary.md R261). -/
def storeY (s : State) : Except Fault State := .ok (s.memWrite s.ad s.y)

/-- LDA immediate: load A (44_secondary.md R256). -/
def execLdaImm (_b : Byte) (s : State) : Host.Outcome State Fault Refusal :=
  secondaryStep 0xA9#8 .imm s.cfg.exCost.lda loadA s

/-- LDA zero-page: load A (44_secondary.md R256). -/
def execLdaZp (b : Byte) (s : State) : Host.Outcome State Fault Refusal :=
  secondaryStep 0xA5#8 (.zp b) s.cfg.exCost.lda loadA s

/-- LDA zero-page,X: load A (44_secondary.md R256). -/
def execLdaZpX (b : Byte) (s : State) : Host.Outcome State Fault Refusal :=
  secondaryStep 0xB5#8 (.zpX b) s.cfg.exCost.lda loadA s

/-- LDA absolute: load A (44_secondary.md R256). -/
def execLdaAbs (a : Word) (s : State) : Host.Outcome State Fault Refusal :=
  secondaryStep 0xAD#8 (.abs a) s.cfg.exCost.lda loadA s

/-- LDA absolute,X: load A (44_secondary.md R256). -/
def execLdaAbsX (a : Word) (s : State) : Host.Outcome State Fault Refusal :=
  secondaryStep 0xBD#8 (.absX a) s.cfg.exCost.lda loadA s

/-- LDA absolute,Y: load A (44_secondary.md R256). -/
def execLdaAbsY (a : Word) (s : State) : Host.Outcome State Fault Refusal :=
  secondaryStep 0xB9#8 (.absY a) s.cfg.exCost.lda loadA s

/-- LDA (zp,X): load A (44_secondary.md R256). -/
def execLdaIndX (b : Byte) (s : State) : Host.Outcome State Fault Refusal :=
  secondaryStep 0xA1#8 (.indX b) s.cfg.exCost.lda loadA s

/-- LDA (zp),Y: load A (44_secondary.md R256). -/
def execLdaIndY (b : Byte) (s : State) : Host.Outcome State Fault Refusal :=
  secondaryStep 0xB1#8 (.indY b) s.cfg.exCost.lda loadA s

/-- LDX immediate: load X (44_secondary.md R257). -/
def execLdxImm (_b : Byte) (s : State) : Host.Outcome State Fault Refusal :=
  secondaryStep 0xA2#8 .imm s.cfg.exCost.ldx loadX s

/-- LDX zero-page: load X (44_secondary.md R257). -/
def execLdxZp (b : Byte) (s : State) : Host.Outcome State Fault Refusal :=
  secondaryStep 0xA6#8 (.zp b) s.cfg.exCost.ldx loadX s

/-- LDX absolute: load X (44_secondary.md R257). -/
def execLdxAbs (a : Word) (s : State) : Host.Outcome State Fault Refusal :=
  secondaryStep 0xAE#8 (.abs a) s.cfg.exCost.ldx loadX s

/-- LDY immediate: load Y (44_secondary.md R258). -/
def execLdyImm (_b : Byte) (s : State) : Host.Outcome State Fault Refusal :=
  secondaryStep 0xA0#8 .imm s.cfg.exCost.ldy loadY s

/-- LDY zero-page: load Y (44_secondary.md R258). -/
def execLdyZp (b : Byte) (s : State) : Host.Outcome State Fault Refusal :=
  secondaryStep 0xA4#8 (.zp b) s.cfg.exCost.ldy loadY s

/-- LDY absolute: load Y (44_secondary.md R258). -/
def execLdyAbs (a : Word) (s : State) : Host.Outcome State Fault Refusal :=
  secondaryStep 0xAC#8 (.abs a) s.cfg.exCost.ldy loadY s

/-- STA zero-page: store A (44_secondary.md R259). -/
def execStaZp (b : Byte) (s : State) : Host.Outcome State Fault Refusal :=
  secondaryStep 0x85#8 (.zp b) s.cfg.exCost.sta storeA s

/-- STA zero-page,X: store A (44_secondary.md R259). -/
def execStaZpX (b : Byte) (s : State) : Host.Outcome State Fault Refusal :=
  secondaryStep 0x95#8 (.zpX b) s.cfg.exCost.sta storeA s

/-- STA absolute: store A (44_secondary.md R259). -/
def execStaAbs (a : Word) (s : State) : Host.Outcome State Fault Refusal :=
  secondaryStep 0x8D#8 (.abs a) s.cfg.exCost.sta storeA s

/-- STA absolute,X: store A (44_secondary.md R259). -/
def execStaAbsX (a : Word) (s : State) : Host.Outcome State Fault Refusal :=
  secondaryStep 0x9D#8 (.absX a) s.cfg.exCost.sta storeA s

/-- STA absolute,Y: store A (44_secondary.md R259). -/
def execStaAbsY (a : Word) (s : State) : Host.Outcome State Fault Refusal :=
  secondaryStep 0x99#8 (.absY a) s.cfg.exCost.sta storeA s

/-- STA (zp,X): store A (44_secondary.md R259). -/
def execStaIndX (b : Byte) (s : State) : Host.Outcome State Fault Refusal :=
  secondaryStep 0x81#8 (.indX b) s.cfg.exCost.sta storeA s

/-- STA (zp),Y: store A (44_secondary.md R259). -/
def execStaIndY (b : Byte) (s : State) : Host.Outcome State Fault Refusal :=
  secondaryStep 0x91#8 (.indY b) s.cfg.exCost.sta storeA s

/-- STX zero-page: store X (44_secondary.md R260). -/
def execStxZp (b : Byte) (s : State) : Host.Outcome State Fault Refusal :=
  secondaryStep 0x86#8 (.zp b) s.cfg.exCost.stx storeX s

/-- STX absolute: store X (44_secondary.md R260). -/
def execStxAbs (a : Word) (s : State) : Host.Outcome State Fault Refusal :=
  secondaryStep 0x8E#8 (.abs a) s.cfg.exCost.stx storeX s

/-- STY zero-page: store Y (44_secondary.md R261). -/
def execStyZp (b : Byte) (s : State) : Host.Outcome State Fault Refusal :=
  secondaryStep 0x84#8 (.zp b) s.cfg.exCost.sty storeY s

/-- STY absolute: store Y (44_secondary.md R261). -/
def execStyAbs (a : Word) (s : State) : Host.Outcome State Fault Refusal :=
  secondaryStep 0x8C#8 (.abs a) s.cfg.exCost.sty storeY s

end Sys2Proof.Machine
end

