-- ==== Sys2Proof/Machine/SecondaryRegister.lean ====
section
/-! DEFINITION. The secondary register, flag and stack operations (44_secondary.md R265 to R278). -/

namespace Sys2Proof.Machine

/-- X <- v; SetZN(v) (44_secondary.md R265). -/
def putX (v : Byte) (s : State) : Except Fault State := .ok ((s.setX v).setZN v)

/-- Y <- v; SetZN(v) (44_secondary.md R266). -/
def putY (v : Byte) (s : State) : Except Fault State := .ok ((s.setY v).setZN v)

/-- A <- v; SetZN(v) (44_secondary.md R271). -/
def putA (v : Byte) (s : State) : Except Fault State := .ok ((s.setA v).setZN v)

/-- v <- Pull8(); A <- v; SetZN(v) (44_secondary.md R276). -/
def pullA (s : State) : Except Fault State := do
  let (v, u) ← s.pull8
  .ok ((u.setA v).setZN v)

/-- v <- Pull8(); P <- v, QZ and QN unpacked from v (44_secondary.md R278, R255). -/
def pullFlags (s : State) : Except Fault State := do
  let (v, u) ← s.pull8
  .ok ((u.setP v).setQ (unpackQZ v) (unpackQN v))

/-- INX: X <- X + 1 (44_secondary.md R265). -/
def execInx (s : State) : Host.Outcome State Fault Refusal :=
  secondaryStep 0xE8#8 .implied s.cfg.exCost.inx (fun u => putX (u.x + 1) u) s

/-- INY: Y <- Y + 1 (44_secondary.md R266). -/
def execIny (s : State) : Host.Outcome State Fault Refusal :=
  secondaryStep 0xC8#8 .implied s.cfg.exCost.iny (fun u => putY (u.y + 1) u) s

/-- DEX: X <- X - 1 (44_secondary.md R267). -/
def execDex (s : State) : Host.Outcome State Fault Refusal :=
  secondaryStep 0xCA#8 .implied s.cfg.exCost.dex (fun u => putX (u.x - 1) u) s

/-- DEY: Y <- Y - 1 (44_secondary.md R268). -/
def execDey (s : State) : Host.Outcome State Fault Refusal :=
  secondaryStep 0x88#8 .implied s.cfg.exCost.dey (fun u => putY (u.y - 1) u) s

/-- TAX: X <- A (44_secondary.md R269). -/
def execTax (s : State) : Host.Outcome State Fault Refusal :=
  secondaryStep 0xAA#8 .implied s.cfg.exCost.tax (fun u => putX u.a u) s

/-- TAY: Y <- A (44_secondary.md R270). -/
def execTay (s : State) : Host.Outcome State Fault Refusal :=
  secondaryStep 0xA8#8 .implied s.cfg.exCost.tay (fun u => putY u.a u) s

/-- TXA: A <- X (44_secondary.md R271). -/
def execTxa (s : State) : Host.Outcome State Fault Refusal :=
  secondaryStep 0x8A#8 .implied s.cfg.exCost.txa (fun u => putA u.x u) s

/-- TYA: A <- Y (44_secondary.md R272). -/
def execTya (s : State) : Host.Outcome State Fault Refusal :=
  secondaryStep 0x98#8 .implied s.cfg.exCost.tya (fun u => putA u.y u) s

/-- CLC: C <- 0 (44_secondary.md R273). -/
def execClc (s : State) : Host.Outcome State Fault Refusal :=
  secondaryStep 0x18#8 .implied s.cfg.exCost.clc (fun u => .ok (u.setP (withC u.p false))) s

/-- SEC: C <- 1 (44_secondary.md R274). -/
def execSec (s : State) : Host.Outcome State Fault Refusal :=
  secondaryStep 0x38#8 .implied s.cfg.exCost.sec (fun u => .ok (u.setP (withC u.p true))) s

/-- PHA: Push8(A) (44_secondary.md R275). -/
def execPha (s : State) : Host.Outcome State Fault Refusal :=
  secondaryStep 0x48#8 .implied s.cfg.exCost.pha (fun u => .ok (u.push8 u.a)) s

/-- PLA: A <- Pull8() (44_secondary.md R276). -/
def execPla (s : State) : Host.Outcome State Fault Refusal :=
  secondaryStep 0x68#8 .implied s.cfg.exCost.pla pullA s

/-- PHP: Push8(pack) (44_secondary.md R277). -/
def execPhp (s : State) : Host.Outcome State Fault Refusal :=
  secondaryStep 0x08#8 .implied s.cfg.exCost.php (fun u => .ok (u.push8 (packFlags u.p u.qz u.qn))) s

/-- PLP: unpack Pull8() (44_secondary.md R278). -/
def execPlp (s : State) : Host.Outcome State Fault Refusal :=
  secondaryStep 0x28#8 .implied s.cfg.exCost.plp pullFlags s

end Sys2Proof.Machine
end

