-- ==== Sys2Proof/Machine/Sys.lean ====
section
/-! DEFINITION. The SYS extension protocol: the native routines, the slot table, and the SYS instruction
(43_sys.md R210 to R222). -/

namespace Sys2Proof.Machine

/-- What a routine leaves: the state and the R it reports, or a read of a byte that holds no value (43_sys.md R214). -/
abbrev RoutineResult := Except Fault (State × Int)

/-- PC <- (PC - 2) mod 2^16: the SYS instruction is issued again (43_sys.md R216). -/
def reissue (s : State) : State := s.setPc (s.pc - 2)

/-- SCRATCH[2i] and SCRATCH[2i+1] as a little-endian word (43_sys.md R221, 20_memory.md R70). -/
def scratchWord (x : Scratch) (i : Nat) : Word := mkWord (x.get (2 * i + 1)) (x.get (2 * i))

/-- A word written to SCRATCH[2i] and SCRATCH[2i+1] (43_sys.md R221). -/
def setScratchWord (x : Scratch) (i : Nat) (v : Word) : Scratch :=
  (x.set (2 * i) (loByte v)).set (2 * i + 1) (hiByte v)

/-- SYS_Placeholder changes nothing (43_sys.md R219). -/
def placeholderRoutine (s : State) : State := s

/-- SYS_RunSecondary: LR <- AC; SEL <- 0x01 (43_sys.md R220). -/
def runSecondaryRoutine (s : State) : State := (s.setLr s.ac).setSel selSFetch

/-- SYS_Multiply16: one bit of the product; re-issued until MASK has been shifted out (43_sys.md R221). -/
def multiplyRoutine (s : State) : State :=
  let a := scratchWord s.scratch 0
  let b := scratchWord s.scratch 1
  let c0 := scratchWord s.scratch 2
  let mask := scratchWord s.scratch 3
  let c := if b &&& mask = 0 then c0 else c0 + a
  let mask' := mask + mask
  let u := s.setScratch (setScratchWord (setScratchWord (setScratchWord s.scratch 0 (a + a)) 2 c) 3 mask')
  if mask' = 0 then u.setAc c else reissue u

/-- `n` bytes copied in ascending order, each read just before it is written (43_sys.md R222). -/
def copyBytes : Nat → Word → Word → State → Except Fault State
  | 0, _, _, s => .ok s
  | n + 1, src, dst, s => do
    let v ← s.readByte src
    copyBytes n (src + 1) (dst + 1) (s.memWrite dst v)

/-- SYS_CopyBytes: at most four bytes, then the arguments written back; re-issued while any are left
(43_sys.md R222). -/
def copyRoutine (s : State) : Except Fault State := do
  let src := scratchWord s.scratch 0
  let dst := scratchWord s.scratch 1
  let cnt := s.scratch.get 4
  let n := min cnt.toNat 4
  let u ← copyBytes n src dst s
  let left := cnt - BitVec.ofNat 8 n
  let v := u.setScratch ((setScratchWord (setScratchWord u.scratch 0 (src + BitVec.ofNat 16 n)) 1
    (dst + BitVec.ofNat 16 n)).set 4 left)
  .ok (if left = 0 then v else reissue v)

/-- What a configured native routine is called with (43_sys.md R215). -/
def nativeView (s : State) : NativeView :=
  { pc := s.pc, ac := s.ac, lr := s.lr, sp := s.sp, tmp := s.tmp, scratch := s.scratch.bytes,
    sysfn := s.sysfn, sel := s.sel, cfg := s.cfg }

/-- The selector a routine leaves: the entry it hands control to, or the one it found (43_sys.md R215, 10_state.md R30). -/
def handOverSel (sel : Byte) : Option HandOver → Byte
  | none => sel
  | some .fetch => selSFetch
  | some .execute => selSExec

/-- The return of a configured native routine: the registers of the contract and SEL (43_sys.md R215, R216). -/
def nativeReturn (r : NativeResult) (s : State) : State :=
  (((((s.setPc r.pc).setAc r.ac).setLr r.lr).setSp r.sp).setTmp r.tmp).setSel (handOverSel s.sel r.handOver)

/-- A configured native routine run to its return: its reads and writes in its own order, memory through MemRead and
MemWrite, so that a byte that holds no value stops by name (43_sys.md R214, R215; 20_memory.md R62, R63). -/
def runNative : NativeProgram → State → RoutineResult
  | .read addr next, s => do
    let v ← s.readByte addr
    runNative (next v) s
  | .write addr v next, s => runNative next (s.memWrite addr v)
  | .writeScratch k v next, s => runNative next (s.setScratch (s.scratch.set k v))
  | .writeSysfn v next, s => runNative next (s.setSysfn v)
  | .done r, s => .ok (nativeReturn r s, r.report)

/-- Run a slot's routine on the current state (43_sys.md R214, R218 to R222). -/
def runRoutine (slot : Slot) (s : State) : RoutineResult :=
  match slot.routine with
  | .placeholder => .ok (placeholderRoutine s, slot.report)
  | .runSecondary => .ok (runSecondaryRoutine s, slot.report)
  | .multiply16 => .ok (multiplyRoutine s, slot.report)
  | .copyBytes => (copyRoutine s).map (fun u => (u, slot.report))
  | .native id => runNative (nativeRoutine id (nativeView s)) s

/-- The first slot whose address equals SYSFN, the list's first slot standing at `base` (43_sys.md R214, R218). -/
def findSlot (stride : Nat) (sysfn : Word) : Nat → List Slot → Option Slot
  | _, [] => none
  | base, slot :: rest => if sysfn.toNat = base then some slot else findSlot stride sysfn (base + stride) rest

/-- The slot SYSFN designates (43_sys.md R218). -/
def slotOf (c : Config) (sysfn : Word) : Option Slot := findSlot c.sysStride sysfn c.sysBase c.slots

/-- An admitted SYS: the slot, the declaration, the routine, the report, in this order (43_sys.md R210). `u` is
the state with PC at PCn. -/
def callSlot (d : Int) (u : State) : Host.Outcome State Fault Refusal :=
  match slotOf u.cfg u.sysfn with
  | none => .fault .sysfnNotASlot
  | some slot =>
    if -d < slot.extra then .fault .sysUnderdeclared
    else
      match runRoutine slot u with
      | .error f => .fault f
      | .ok (v, report) =>
        if 1 ≤ -report ∧ -report ≤ v.cfg.maxtP - d then .next (v.setT (v.t + report))
        else .fault .overrun

/-- SYS: the reserved operands, the admission on T + D, the call (43_sys.md R210, R212, R213). -/
def execSys (d : Byte) (s : State) : Host.Outcome State Fault Refusal :=
  if sysOperandLegal d then
    if s.t + signed8 d < 0 then .next (s.defer .sys)
    else callSlot (signed8 d) (s.setPc (s.pc + 2))
  else .fault .sysOperandReserved

end Sys2Proof.Machine
end

