-- ==== Sys2Proof/Machine/Dispatch.lean ====
section
/-! DEFINITION. The dispatch: one arm per constructor of Instr, each one direct call of that instruction's meaning. -/

namespace Sys2Proof.Machine

def exec (i : Instr) (s : State) : Host.Outcome State Fault Refusal :=
  match i with
  | .ldi b => Sys2Proof.Machine.execLdi b s
  | .ldwi w => Sys2Proof.Machine.execLdwi w s
  | .ld b => Sys2Proof.Machine.execLd b s
  | .ldw b => Sys2Proof.Machine.execLdw b s
  | .st b => Sys2Proof.Machine.execSt b s
  | .stw b => Sys2Proof.Machine.execStw b s
  | .addw b => Sys2Proof.Machine.execAddw b s
  | .subw b => Sys2Proof.Machine.execSubw b s
  | .bra w => Sys2Proof.Machine.execBra w s
  | .beq w => Sys2Proof.Machine.execBeq w s
  | .bne w => Sys2Proof.Machine.execBne w s
  | .blt w => Sys2Proof.Machine.execBlt w s
  | .bge w => Sys2Proof.Machine.execBge w s
  | .bgt w => Sys2Proof.Machine.execBgt w s
  | .ble w => Sys2Proof.Machine.execBle w s
  | .call w => Sys2Proof.Machine.execCall w s
  | .ret => Sys2Proof.Machine.execRet s
  | .push => Sys2Proof.Machine.execPush s
  | .pop => Sys2Proof.Machine.execPop s
  | .lup b => Sys2Proof.Machine.execLup b s
  | .sys b => Sys2Proof.Machine.execSys b s
  | .rti => Sys2Proof.Machine.execRti s
  | .negw => Sys2Proof.Machine.execNegw s
  | .addi b => Sys2Proof.Machine.execAddi b s
  | .subi b => Sys2Proof.Machine.execSubi b s
  | .bral w => Sys2Proof.Machine.execBral w s
  | .bnel w => Sys2Proof.Machine.execBnel w s
  | .beql w => Sys2Proof.Machine.execBeql w s
  | .ldaImm b => Sys2Proof.Machine.execLdaImm b s
  | .ldaZp b => Sys2Proof.Machine.execLdaZp b s
  | .ldaZpX b => Sys2Proof.Machine.execLdaZpX b s
  | .ldaAbs w => Sys2Proof.Machine.execLdaAbs w s
  | .ldaAbsX w => Sys2Proof.Machine.execLdaAbsX w s
  | .ldaAbsY w => Sys2Proof.Machine.execLdaAbsY w s
  | .ldaIndX b => Sys2Proof.Machine.execLdaIndX b s
  | .ldaIndY b => Sys2Proof.Machine.execLdaIndY b s
  | .ldxImm b => Sys2Proof.Machine.execLdxImm b s
  | .ldxZp b => Sys2Proof.Machine.execLdxZp b s
  | .ldxAbs w => Sys2Proof.Machine.execLdxAbs w s
  | .ldyImm b => Sys2Proof.Machine.execLdyImm b s
  | .ldyZp b => Sys2Proof.Machine.execLdyZp b s
  | .ldyAbs w => Sys2Proof.Machine.execLdyAbs w s
  | .staZp b => Sys2Proof.Machine.execStaZp b s
  | .staZpX b => Sys2Proof.Machine.execStaZpX b s
  | .staAbs w => Sys2Proof.Machine.execStaAbs w s
  | .staAbsX w => Sys2Proof.Machine.execStaAbsX w s
  | .staAbsY w => Sys2Proof.Machine.execStaAbsY w s
  | .staIndX b => Sys2Proof.Machine.execStaIndX b s
  | .staIndY b => Sys2Proof.Machine.execStaIndY b s
  | .stxZp b => Sys2Proof.Machine.execStxZp b s
  | .stxAbs w => Sys2Proof.Machine.execStxAbs w s
  | .styZp b => Sys2Proof.Machine.execStyZp b s
  | .styAbs w => Sys2Proof.Machine.execStyAbs w s
  | .adcImm b => Sys2Proof.Machine.execAdcImm b s
  | .adcZp b => Sys2Proof.Machine.execAdcZp b s
  | .adcZpX b => Sys2Proof.Machine.execAdcZpX b s
  | .adcAbs w => Sys2Proof.Machine.execAdcAbs w s
  | .adcAbsX w => Sys2Proof.Machine.execAdcAbsX w s
  | .adcAbsY w => Sys2Proof.Machine.execAdcAbsY w s
  | .adcIndX b => Sys2Proof.Machine.execAdcIndX b s
  | .adcIndY b => Sys2Proof.Machine.execAdcIndY b s
  | .sbcImm b => Sys2Proof.Machine.execSbcImm b s
  | .sbcZp b => Sys2Proof.Machine.execSbcZp b s
  | .sbcZpX b => Sys2Proof.Machine.execSbcZpX b s
  | .sbcAbs w => Sys2Proof.Machine.execSbcAbs w s
  | .sbcAbsX w => Sys2Proof.Machine.execSbcAbsX w s
  | .sbcAbsY w => Sys2Proof.Machine.execSbcAbsY w s
  | .sbcIndX b => Sys2Proof.Machine.execSbcIndX b s
  | .sbcIndY b => Sys2Proof.Machine.execSbcIndY b s
  | .cmpImm b => Sys2Proof.Machine.execCmpImm b s
  | .cmpZp b => Sys2Proof.Machine.execCmpZp b s
  | .cmpAbs w => Sys2Proof.Machine.execCmpAbs w s
  | .jmpAbs w => Sys2Proof.Machine.execJmpAbs w s
  | .inx => Sys2Proof.Machine.execInx s
  | .iny => Sys2Proof.Machine.execIny s
  | .dex => Sys2Proof.Machine.execDex s
  | .dey => Sys2Proof.Machine.execDey s
  | .tax => Sys2Proof.Machine.execTax s
  | .tay => Sys2Proof.Machine.execTay s
  | .txa => Sys2Proof.Machine.execTxa s
  | .tya => Sys2Proof.Machine.execTya s
  | .clc => Sys2Proof.Machine.execClc s
  | .sec => Sys2Proof.Machine.execSec s
  | .pha => Sys2Proof.Machine.execPha s
  | .pla => Sys2Proof.Machine.execPla s
  | .php => Sys2Proof.Machine.execPhp s
  | .plp => Sys2Proof.Machine.execPlp s
  | .nop => Sys2Proof.Machine.execNop s
  | .brk => Sys2Proof.Machine.execBrk s
  | .bplRel b => Sys2Proof.Machine.execBplRel b s
  | .bmiRel b => Sys2Proof.Machine.execBmiRel b s
  | .bvcRel b => Sys2Proof.Machine.execBvcRel b s
  | .bvsRel b => Sys2Proof.Machine.execBvsRel b s
  | .bccRel b => Sys2Proof.Machine.execBccRel b s
  | .bcsRel b => Sys2Proof.Machine.execBcsRel b s
  | .bneRel b => Sys2Proof.Machine.execBneRel b s
  | .beqRel b => Sys2Proof.Machine.execBeqRel b s
  | .esc b => Sys2Proof.Machine.execEsc b s

end Sys2Proof.Machine
end

