-- ==== Sys2Proof/Machine/Fetch.lean ====
section
/-! DEFINITION. Which instruction the next dispatch step runs (40_scheduler_dispatch.md R126, R131), and how an
instruction is placed where the next step fetches it. -/

namespace Sys2Proof.Machine

/-- What the fetch of a dispatch step finds. -/
inductive Fetched where
  /-- an instruction, to be executed -/
  | instr (i : Instr)
  /-- an expensive secondary decode that is not admitted, found before its operand bytes are read -/
  | deferDecode
  /-- no instruction -/
  | stop (f : Fault)
  deriving DecidableEq, Repr

/-- The bytes from an address on, at most `n`, up to the first that holds no value. Reads have no side effect
(20_memory.md R62), so a byte that the instruction turns out not to have is read unobserved
(40_scheduler_dispatch.md R131, the discarded lookahead byte). -/
def State.readRun (s : State) : Nat → Word → List Byte
  | 0, _ => []
  | n + 1, addr =>
    match s.memRead addr with
    | some b => b :: s.readRun n (addr + 1)
    | none => []

/-- The fault of a decode that finds no instruction: bytes that end too early are bytes that hold no value
(20_memory.md R62; 41_primary.md R174, 42_extended.md R197, 30_encoding.md R95). -/
def decodeFault : DecodeError → Fault
  | .truncated => .readUnwritten
  | .illegalPrimaryOpcode _ => .illegalPrimaryOpcode
  | .illegalExtendedOpcode _ => .illegalExtendedOpcode
  | .sysOperandReserved _ => .sysOperandReserved

/-- Primary fetch: the longest instruction has four bytes (30_encoding.md R93; 41_primary.md R150). -/
def fetchPrimary (s : State) : Fetched :=
  match decodePrimary (s.readRun 4 s.pc) with
  | .ok (i, _) => .instr i
  | .error e => .stop (decodeFault e)

/-- The opcodes of expensive class with one operand byte: the columns (zp,X) and (zp),Y of 30_encoding.md R100. -/
def indirectOpcodes : List Byte := [0xA1#8, 0xB1#8, 0x81#8, 0x91#8, 0x61#8, 0x71#8, 0xE1#8, 0xF1#8]

/-- An opcode of expensive class, which Fetch knows before any operand byte is read (44_secondary.md R241): the
modes with a 16-bit operand and the two indirect ones (30_encoding.md R101). -/
def opcodeExpensive (op : Byte) : Bool :=
  match secondaryRow op with
  | some (.op2 _) => true
  | some (.op1 _) => indirectOpcodes.contains op
  | _ => false

/-- The opcodes of the immediate column of 30_encoding.md R100, and the eight branches: S_FD forms the address of their
operand byte and does not read it; Execute does (44_secondary.md R241, R245, R246). -/
def operandAtExecute : List Byte :=
  [0xA9#8, 0xA2#8, 0xA0#8, 0x69#8, 0xE9#8, 0xC9#8, 0x10#8, 0x30#8, 0x50#8, 0x70#8, 0x90#8, 0xB0#8, 0xD0#8, 0xF0#8]

/-- The secondary instruction that a list of bytes decodes to, or the fault of finding none. -/
def secondaryOf (bytes : List Byte) : Fetched :=
  match decodeSecondary bytes with
  | .ok (i, _) => .instr i
  | .error e => .stop (decodeFault e)

/-- Secondary fetch: the opcode at LR; its operand bytes as they read once IR has been written, since IR may be
one of them (20_memory.md R77). Where an operand byte holds no value, a decode that is not admitted defers all the same,
since it would not have read it (44_secondary.md R243), and so does an immediate or relative one go on, with 0x00 in
the field that no meaning reads (R245, R246; log entry 11). -/
def fetchSecondary (s : State) : Fetched :=
  match s.memRead s.lr with
  | none => .stop .readUnwritten
  | some op =>
    match decodeSecondary (op :: (s.setIr op).readRun 2 (s.lr + 1)) with
    | .ok (i, _) => .instr i
    | .error e =>
      if opcodeExpensive op && expensiveNotAdmitted s then .deferDecode
      else if operandAtExecute.contains op then secondaryOf [op, 0x00#8]
      else .stop (decodeFault e)

/-- The latched instruction: Execute is dispatched through the table by IR, and its operation works on the latched
AD, so the two operand bytes handed to the decoder are ADL and ADH (44_secondary.md R254, R292; log entry 11). -/
def latchedInstr (s : State) : Fetched := secondaryOf [s.ir, s.adl, s.adh]

/-- The step SEL selects, and by SEL alone (40_scheduler_dispatch.md R125, R126). -/
def fetch (s : State) : Fetched :=
  if s.sel = selP then fetchPrimary s
  else if s.sel = selSFetch then fetchSecondary s
  else if s.sel = selSExec then latchedInstr s
  else .stop .selReserved

/-- Bytes stored from an address on, through the windows. -/
def storeRun : List Byte → Word → State → State
  | [], _, s => s
  | b :: rest, addr, s => storeRun rest (addr + 1) (s.memWrite addr b)

/-- A slice in progress as START_SLICE(UNBOUNDED) arms it for an interpreter (40_scheduler_dispatch.md R124). -/
def armSlice (i : Interp) (s : State) : State :=
  { s with t := s.cfg.tmax, run := .running,
           sliceN := (overhead s.cfg i + 2 * (s.cfg.tmax + reserve s.cfg i)).toNat }

/-- The instruction of a row of opcode_table.json put where the next step fetches: its bytes at PC with SEL = 0x00,
or at LR with SEL = 0x01, in a slice just armed (log entry 7). -/
def placeTableWord (s : State) (nbits w : Nat) : State :=
  match tableRowIsa nbits (BitVec.ofNat 8 (w % 2 ^ nbits)) with
  | .primary => storeRun (tableBytes nbits w) s.pc (armSlice .primary (s.setSel selP))
  | .secondary => storeRun (tableBytes nbits w) s.lr (armSlice .secondary (s.setSel selSFetch))

end Sys2Proof.Machine
end

