-- ==== Sys2Proof/Machine/Slice.lean ====
section
/-! DEFINITION. The scheduler and the host interface: the end of a dispatch step inside the slice loop
(40_scheduler_dispatch.md R130, R132, R137), and the five host commands (R120; 60_exceptions.md R333;
70_reset_and_hazards.md R360). -/

namespace Sys2Proof.Machine

/-- After a charged step: a change of interpreter ends the slice, and before exhaustion does
(40_scheduler_dispatch.md R130, R132, R137). `i0` is the interpreter that ran the step. -/
def closeStep (i0 : Option Interp) (t : State) : Host.Outcome State Fault Refusal :=
  match interp t.sel with
  | none => .fault .selReserved
  | some j =>
    if some j ≠ i0 then .next (t.exitSlice .switched)
    else if t.t < 0 then .next (t.exitSlice .exhausted)
    else .next t

/-- The slice loop's end of a step (40_scheduler_dispatch.md R137): a deferral has left RUN = IDLE and ends the slice
as it stands, a fault stops the machine. `s` is the state before the step. -/
def finishStep (s : State) : Host.Outcome State Fault Refusal → Host.Outcome State Fault Refusal
  | .next t => if t.run = .idle then .next t else closeStep (interp s.sel) t
  | .fault f => .fault f
  | .refused r => .refused r

/-! ### Host commands -/

/-- RESET: the registers 10_state.md R40 gives a value; the other registers are not written, and memory holds no
value afterwards (70_reset_and_hazards.md R360, 10_state.md R41; log entry 8). -/
def resetCommand (s : State) : State :=
  { s with pc := s.cfg.resetPc, sel := selP, insvc := false, sp := 0x00#8, run := .idle, mem := [] }

/-- IRQ_CHECK: read the vector; redirect if it is not zero and no interrupt is in service (60_exceptions.md R333). -/
def irqCheck (s : State) : Host.Outcome State Fault Refusal :=
  match s.readWord s.cfg.irqVectorAddr with
  | .error f => .fault f
  | .ok v =>
    if v ≠ 0x0000#16 ∧ s.insvc = false then .next ((s.enterInterrupt v).setAnswer (some (.irqChecked true)))
    else .next (s.setAnswer (some (.irqChecked false)))

/-- The N of a START_SLICE: UNBOUNDED substitutes OVH[i] + 2 * (TMAX + MAXT[i]) (40_scheduler_dispatch.md R124, R137). -/
def budgetCycles (c : Config) (i : Interp) : Budget → Int
  | .cycles n => n
  | .unbounded => overhead c i + 2 * (c.tmax + reserve c i)

/-- The overhead precondition: N is legal for interpreter i (40_scheduler_dispatch.md R123). -/
def budgetLegal (c : Config) (i : Interp) (n : Int) : Bool :=
  decide (overhead c i + 2 * reserve c i ≤ n ∧ n ≤ overhead c i + 2 * (c.tmax + reserve c i) + 1)

/-- The entry value of T: floor((N - OVH[i]) / 2) - MAXT[i] (40_scheduler_dispatch.md R122). -/
def entryTicks (c : Config) (i : Interp) (n : Int) : Int :=
  (n - overhead c i) / cyclesPerTick - reserve c i

/-- START_SLICE up to the loop: a reserved SEL, the precondition, T, RUN (40_scheduler_dispatch.md R122, R137). The
precondition is tested on a given N only; the N that UNBOUNDED substitutes is not (R137). -/
def startSlice (b : Budget) (s : State) : Host.Outcome State Fault Refusal :=
  match interp s.sel with
  | none => .fault .selReserved
  | some i =>
    let n := budgetCycles s.cfg i b
    if b = .unbounded ∨ budgetLegal s.cfg i n = true then
      .next { s with t := entryTicks s.cfg i n, run := .running, sliceN := n.toNat }
    else .fault .budgetPrecondition

/-- HOST_READ, through the windows (40_scheduler_dispatch.md R136). -/
def hostRead (addr : Word) (s : State) : Host.Outcome State Fault Refusal :=
  match s.readByte addr with
  | .ok v => .next (s.setAnswer (some (.byteRead v)))
  | .error f => .fault f

/-- One host command, issued while RUN = IDLE (40_scheduler_dispatch.md R120, R121). -/
def runCommand : Command → State → Host.Outcome State Fault Refusal
  | .reset, s => .next (resetCommand s)
  | .irqCheck, s => irqCheck s
  | .startSlice b, s => startSlice b s
  | .hostRead addr, s => hostRead addr s
  | .hostWrite addr v, s => .next (s.memWrite addr v)

/-- A step with RUN = IDLE: the host issues its next command, or nothing happens (10_state.md R38). A command begins
with no answer. -/
def hostStep (s : State) : Host.Outcome State Fault Refusal :=
  match s.pending with
  | [] => .next s
  | c :: rest => runCommand c { s with pending := rest, answer := none }

end Sys2Proof.Machine
end

