-- ==== Sys2Proof/Machine/Step.lean ====
section
/-! DEFINITION. One step of the machine: a host command while RUN = IDLE, a dispatch step of the slice in progress
while RUN = RUNNING (10_state.md R38, 40_scheduler_dispatch.md R126, R137). -/

namespace Sys2Proof.Machine

/-- A dispatch step inside the slice loop (40_scheduler_dispatch.md R126, R137). -/
def dispatchStep (s : State) : Host.Outcome State Fault Refusal :=
  match fetch s with
  | .instr i => finishStep s (exec i s)
  | .deferDecode => finishStep s (.next (s.defer .decode))
  | .stop f => .fault f

/-- One step of the machine. -/
def step (s : State) : Host.Outcome State Fault Refusal :=
  match s.run with
  | .idle => hostStep s
  | .running => dispatchStep s

/-- The state with the instruction of a table row placed where the next step fetches it (log entry 7). -/
def State.withFetchWord (s : State) (nbits w : Nat) : State := placeTableWord s nbits w

end Sys2Proof.Machine
end

