-- ==== Sys2Proof/Safety.lean ====
section
/-! DEFINITION. What the claims call a good state: the invariants of the machine, each a predicate on states, and what
a native routine of the configuration can and cannot touch. -/

namespace Sys2Proof.Machine

/-- The memory is in its canonical form and lists no window address: "M at those ten addresses is never observable"
(20_memory.md R63, R66). -/
structure MemoryGood (s : State) : Prop where
  canonical : Memory.wf s.mem
  noWindow : ∀ c ∈ s.mem, State.inSysfnWindow s.cfg (BitVec.ofNat 16 c.1) = false ∧
    State.inScratchWindow s.cfg (BitVec.ofNat 16 c.1) = false

/-- SEL, and the selector saved for the return from interrupt, hold legal values (10_state.md R30). -/
structure SelectorGood (s : State) : Prop where
  sel : s.sel = selP ∨ s.sel = selSFetch ∨ s.sel = selSExec
  isel : s.isel = selP ∨ s.isel = selSFetch ∨ s.isel = selSExec

/-- The range of T (40_scheduler_dispatch.md R133): inside the signed W_T-bit range always, and with the reserve
intact, 0 <= T <= TMAX, whenever a step is about to run. -/
structure TicksGood (s : State) : Prop where
  low : -(2 ^ (s.cfg.wT - 1) : Int) ≤ s.t
  high : s.t ≤ s.cfg.tmax
  room : s.run = .running → 0 ≤ s.t

/-- Everything an instruction can never write: the configuration and the model's own interface fields, the interrupt
save area and RUN's slice budget (10_state.md R33, R39; 60_exceptions.md R342). -/
structure SameProtected (s t : State) : Prop where
  cfg : t.cfg = s.cfg
  ipc : t.ipc = s.ipc
  iac : t.iac = s.iac
  isel : t.isel = s.isel
  sliceN : t.sliceN = s.sliceN
  pending : t.pending = s.pending

/-- A configuration whose SYS slots hold the four reference routines only (43_sys.md R219 to R222). -/
def ReferenceSlots (c : Config) : Prop := ∀ slot ∈ c.slots, ∀ id, slot.routine ≠ .native id

/-! ### The secondary opcode table, and other words the claims use -/

/-- The operations of the secondary set: the rows of 30_encoding.md R100, and the escape of R102. -/
inductive Operation where
  | lda | ldx | ldy | sta | stx | sty | adc | sbc | cmp | jmp | inx | iny | dex | dey | tax | tay | txa | tya | clc
  | sec | pha | pla | php | plp | nop | brk | bpl | bmi | bvc | bvs | bcc | bcs | bne | beq | esc
  deriving DecidableEq, Repr

/-- The table of 30_encoding.md R100 with the escape of R102: opcode, operation and addressing mode of a secondary
instruction; `none` for an instruction of the primary set. -/
def secondaryTable : Instr → Option (Byte × Operation × Mode)
  | .ldi _ | .ldwi _ | .ld _ | .ldw _ | .st _ | .stw _ | .addw _ | .subw _ | .bra _ | .beq _ | .bne _ | .blt _
  | .bge _ | .bgt _ | .ble _ | .call _ | .ret | .push | .pop | .lup _ | .sys _ | .rti | .negw | .addi _ | .subi _
  | .bral _ | .bnel _ | .beql _ => none
  | .ldaImm _ => some (0xA9#8, .lda, .imm)
  | .ldaZp b => some (0xA5#8, .lda, (.zp b))
  | .ldaZpX b => some (0xB5#8, .lda, (.zpX b))
  | .ldaAbs w => some (0xAD#8, .lda, (.abs w))
  | .ldaAbsX w => some (0xBD#8, .lda, (.absX w))
  | .ldaAbsY w => some (0xB9#8, .lda, (.absY w))
  | .ldaIndX b => some (0xA1#8, .lda, (.indX b))
  | .ldaIndY b => some (0xB1#8, .lda, (.indY b))
  | .ldxImm _ => some (0xA2#8, .ldx, .imm)
  | .ldxZp b => some (0xA6#8, .ldx, (.zp b))
  | .ldxAbs w => some (0xAE#8, .ldx, (.abs w))
  | .ldyImm _ => some (0xA0#8, .ldy, .imm)
  | .ldyZp b => some (0xA4#8, .ldy, (.zp b))
  | .ldyAbs w => some (0xAC#8, .ldy, (.abs w))
  | .staZp b => some (0x85#8, .sta, (.zp b))
  | .staZpX b => some (0x95#8, .sta, (.zpX b))
  | .staAbs w => some (0x8D#8, .sta, (.abs w))
  | .staAbsX w => some (0x9D#8, .sta, (.absX w))
  | .staAbsY w => some (0x99#8, .sta, (.absY w))
  | .staIndX b => some (0x81#8, .sta, (.indX b))
  | .staIndY b => some (0x91#8, .sta, (.indY b))
  | .stxZp b => some (0x86#8, .stx, (.zp b))
  | .stxAbs w => some (0x8E#8, .stx, (.abs w))
  | .styZp b => some (0x84#8, .sty, (.zp b))
  | .styAbs w => some (0x8C#8, .sty, (.abs w))
  | .adcImm _ => some (0x69#8, .adc, .imm)
  | .adcZp b => some (0x65#8, .adc, (.zp b))
  | .adcZpX b => some (0x75#8, .adc, (.zpX b))
  | .adcAbs w => some (0x6D#8, .adc, (.abs w))
  | .adcAbsX w => some (0x7D#8, .adc, (.absX w))
  | .adcAbsY w => some (0x79#8, .adc, (.absY w))
  | .adcIndX b => some (0x61#8, .adc, (.indX b))
  | .adcIndY b => some (0x71#8, .adc, (.indY b))
  | .sbcImm _ => some (0xE9#8, .sbc, .imm)
  | .sbcZp b => some (0xE5#8, .sbc, (.zp b))
  | .sbcZpX b => some (0xF5#8, .sbc, (.zpX b))
  | .sbcAbs w => some (0xED#8, .sbc, (.abs w))
  | .sbcAbsX w => some (0xFD#8, .sbc, (.absX w))
  | .sbcAbsY w => some (0xF9#8, .sbc, (.absY w))
  | .sbcIndX b => some (0xE1#8, .sbc, (.indX b))
  | .sbcIndY b => some (0xF1#8, .sbc, (.indY b))
  | .cmpImm _ => some (0xC9#8, .cmp, .imm)
  | .cmpZp b => some (0xC5#8, .cmp, (.zp b))
  | .cmpAbs w => some (0xCD#8, .cmp, (.abs w))
  | .jmpAbs w => some (0x4C#8, .jmp, (.abs w))
  | .inx => some (0xE8#8, .inx, .implied)
  | .iny => some (0xC8#8, .iny, .implied)
  | .dex => some (0xCA#8, .dex, .implied)
  | .dey => some (0x88#8, .dey, .implied)
  | .tax => some (0xAA#8, .tax, .implied)
  | .tay => some (0xA8#8, .tay, .implied)
  | .txa => some (0x8A#8, .txa, .implied)
  | .tya => some (0x98#8, .tya, .implied)
  | .clc => some (0x18#8, .clc, .implied)
  | .sec => some (0x38#8, .sec, .implied)
  | .pha => some (0x48#8, .pha, .implied)
  | .pla => some (0x68#8, .pla, .implied)
  | .php => some (0x08#8, .php, .implied)
  | .plp => some (0x28#8, .plp, .implied)
  | .nop => some (0xEA#8, .nop, .implied)
  | .brk => some (0x00#8, .brk, .implied)
  | .bplRel _ => some (0x10#8, .bpl, .rel)
  | .bmiRel _ => some (0x30#8, .bmi, .rel)
  | .bvcRel _ => some (0x50#8, .bvc, .rel)
  | .bvsRel _ => some (0x70#8, .bvs, .rel)
  | .bccRel _ => some (0x90#8, .bcc, .rel)
  | .bcsRel _ => some (0xB0#8, .bcs, .rel)
  | .bneRel _ => some (0xD0#8, .bne, .rel)
  | .beqRel _ => some (0xF0#8, .beq, .rel)
  | .esc op => some (op, .esc, .implied)

/-- The consecutive bytes from an address on (mod 2^16) are those of a list (30_encoding.md R90, R93, R99). -/
def BytesAt (s : State) : Word → List Byte → Prop
  | _, [] => True
  | addr, b :: rest => s.memRead addr = some b ∧ BytesAt s (addr + 1) rest

/-- Every read of a byte of data memory, through the windows too, gives in `t` what it gives in `s`. -/
def SameReads (s t : State) : Prop := ∀ addr : Word, t.memRead addr = s.memRead addr

/-- The same outside the SCRATCH window, the bytes of the secondary registers (20_memory.md R66). -/
def SameReadsOutsideScratch (s t : State) : Prop :=
  ∀ addr : Word, State.inScratchWindow s.cfg addr = false → t.memRead addr = s.memRead addr

/-- The address lies in neither register window (20_memory.md R66). -/
def OutsideWindows (c : Config) (addr : Word) : Prop :=
  State.inSysfnWindow c addr = false ∧ State.inScratchWindow c addr = false

/-- The operations that write memory (44_secondary.md R259 to R261, R275, R277). -/
def Operation.storing (o : Operation) : Bool := o == .sta || o == .stx || o == .sty || o == .pha || o == .php

/-- The instructions that write memory: ST, STW, PUSH, SYS, and the storing secondary operations. -/
def storing (i : Instr) : Bool :=
  match secondaryTable i with
  | some (_, o, _) => o.storing
  | none =>
    match i with
    | .st _ => true
    | .stw _ => true
    | .push => true
    | .sys _ => true
    | _ => false

end Sys2Proof.Machine
end

