-- ==== Sys2Proof/Certificates/Slice0/Obligations.lean ====
section
/-! DEFINITION. The statements for the provers, each a closed proposition: what the instructions and the machine do,
rule by rule. A statement that says what an instruction does is an equation `exec i s = .next t`: the instruction
completes, `t` holds what the rules give, and every field of the state that `t` does not name is unchanged, so the
reads of memory are too. -/

open Sys2Proof Sys2Proof.Machine

/-! ### Encoding -/

/-- Decoding the bytes of a well-formed instruction gives it back, with whatever follows it (30_encoding.md R90 to
R102). -/
def Obligations.DecodeOfEncode : Prop :=
  ∀ (i : Instr) (rest : List Byte), i.wellFormed = true → decode i.isa (encode i ++ rest) = .ok (i, rest)

/-- Every sequence of bytes that decodes is the encoding of what it decodes to, followed by the rest: each
instruction has one encoding (30_encoding.md R106), and only well-formed instructions come out. -/
def Obligations.EncodeOfDecode : Prop :=
  ∀ (isa : Isa) (bytes : List Byte) (i : Instr) (rest : List Byte),
    decode isa bytes = .ok (i, rest) → bytes = encode i ++ rest ∧ i.wellFormed = true ∧ i.isa = isa

/-- A few instructions of each family as the spec writes their bytes (41_primary.md, 42_extended.md, 43_sys.md,
44_secondary.md, 60_exceptions.md: the examples of the rules). -/
def Obligations.SampleWordsDecode : Prop :=
  decode .primary [0x01#8, 0x05#8] = .ok (.ldi 0x05#8, []) ∧
  decode .primary [0x02#8, 0x2C#8, 0x01#8] = .ok (.ldwi 0x012C#16, []) ∧
  decode .primary [0x04#8, 0x30#8] = .ok (.ldw 0x30#8, []) ∧
  decode .primary [0x0B#8, 0x0C#8, 0x02#8] = .ok (.bne 0x020C#16, []) ∧
  decode .primary [0x15#8, 0xFA#8] = .ok (.sys 0xFA#8, []) ∧
  decode .primary [0x16#8] = .ok (.rti, []) ∧
  decode .primary [0x17#8, 0x02#8, 0x01#8] = .ok (.addi 0x01#8, []) ∧
  decode .primary [0x17#8, 0x05#8, 0x10#8, 0x00#8] = .ok (.bnel 0x0010#16, []) ∧
  decode .secondary [0xA9#8, 0x37#8] = .ok (.ldaImm 0x37#8, []) ∧
  decode .secondary [0x9D#8, 0x00#8, 0x04#8] = .ok (.staAbsX 0x0400#16, []) ∧
  decode .secondary [0xA1#8, 0x3E#8] = .ok (.ldaIndX 0x3E#8, []) ∧
  decode .secondary [0x69#8, 0xC9#8] = .ok (.adcImm 0xC9#8, []) ∧
  decode .secondary [0xE8#8] = .ok (.inx, []) ∧
  decode .secondary [0x08#8] = .ok (.php, []) ∧
  decode .secondary [0xD0#8, 0xFC#8] = .ok (.bneRel 0xFC#8, []) ∧
  decode .secondary [0x6C#8] = .ok (.esc 0x6C#8, [])

/-- The 187 opcodes outside 30_encoding.md R100 are decoded as the one-byte escape, whatever byte follows; no
secondary byte is reserved (R102). -/
def Obligations.UnimplementedOpcodesDecode : Prop :=
  implementedOpcodes.length = 69 ∧ implementedOpcodes.Nodup ∧
  (((List.range 256).map (BitVec.ofNat 8)).filter (fun op => !implementedOpcodes.contains op)).length = 187 ∧
  (∀ (op : Byte) (rest : List Byte), op ∉ implementedOpcodes →
    decode .secondary (op :: rest) = .ok (.esc op, rest)) ∧
  (∀ op ∈ implementedOpcodes, ∀ (b c : Byte) (rest : List Byte), ∃ (i : Instr) (left : List Byte),
    decode .secondary (op :: b :: c :: rest) = .ok (i, left) ∧ ∀ q : Byte, i ≠ .esc q)

/-- The table of 30_encoding.md R100 and the encoder agree: an instruction of the secondary set has its opcode byte
first and then the operand bytes of its mode, low byte first; the other instructions are of the primary set. -/
def Obligations.SecondaryEncodings : Prop :=
  (∀ i : Instr, secondaryTable i = none ↔ i.isa = .primary) ∧
  ∀ (i : Instr) (op : Byte) (o : Operation) (m : Mode), secondaryTable i = some (op, o, m) →
    (encode i).head? = some op ∧ (encode i).length = 1 + m.operandBytes.toNat ∧
    match m with
    | .implied => encode i = [op]
    | .imm => ∃ b, encode i = [op, b]
    | .rel => ∃ b, encode i = [op, b]
    | .zp b => encode i = [op, b]
    | .zpX b => encode i = [op, b]
    | .abs a => encode i = [op, loByte a, hiByte a]
    | .absX a => encode i = [op, loByte a, hiByte a]
    | .absY a => encode i = [op, loByte a, hiByte a]
    | .indX b => encode i = [op, b]
    | .indY b => encode i = [op, b]

/-! ### The step -/

/-- A reserved encoding of the primary set stops the machine by name: an opcode 0x00 or 0x18 to 0xFF; an extended
opcode 0x00 or 0x07 to 0xFF; a SYS operand 0x01 to 0x7F (30_encoding.md R95; 41_primary.md R174; 42_extended.md
R197). -/
def Obligations.ReservedEncodingsFault : Prop :=
  ∀ s : State, s.run = .running → s.sel = selP →
    (∀ op : Byte, s.memRead s.pc = some op → op = 0x00#8 ∨ 0x18 ≤ op.toNat →
      step s = .fault .illegalPrimaryOpcode) ∧
    (∀ xop : Byte, s.memRead s.pc = some 0x17#8 → s.memRead (s.pc + 1) = some xop →
      xop = 0x00#8 ∨ 0x07 ≤ xop.toNat → step s = .fault .illegalExtendedOpcode) ∧
    (∀ d : Byte, s.memRead s.pc = some 0x15#8 → s.memRead (s.pc + 1) = some d →
      1 ≤ d.toNat → d.toNat ≤ 0x7F → step s = .fault .sysOperandReserved)

/-- A step of a running slice runs the instruction that the bytes at the program counter of the active interpreter
decode to, and then closes the step (`finishStep`, see SliceLoop); with SEL = 0x02 it runs the latched one
(40_scheduler_dispatch.md R126). -/
def Obligations.StepRunsDecodedInstruction : Prop :=
  ∀ (s : State) (i : Instr) (rest : List Byte), s.run = .running →
    (s.sel = 0x00#8 → decode .primary (s.readRun 4 s.pc) = .ok (i, rest) → step s = finishStep s (exec i s)) ∧
    (s.sel = 0x01#8 → ∀ op : Byte, s.memRead s.lr = some op →
      decode .secondary (op :: (s.setIr op).readRun 2 (s.lr + 1)) = .ok (i, rest) →
      step s = finishStep s (exec i s)) ∧
    (s.sel = 0x02#8 → decode .secondary [s.ir, s.adl, s.adh] = .ok (i, rest) → step s = finishStep s (exec i s)) ∧
    (s.sel ≠ 0x00#8 → s.sel ≠ 0x01#8 → s.sel ≠ 0x02#8 → step s = .fault .selReserved)

/-- An instruction runs as soon as its own bytes stand in memory: nothing past them is needed, so the lookahead byte of a
one-byte instruction may hold no value. A fetch that meets a byte without a value before the instruction is complete
stops by name: for a primary instruction any of its bytes, for a secondary one its opcode, and the operand bytes of the
zero-page modes and of the expensive modes where the decode is admitted (a decode that is not admitted reads none, see
DecodeDeferral; a pointer byte without a value is in FetchDecodeExpensive). The operand byte of an immediate or relative one is not read before Execute and need hold no value
(40_scheduler_dispatch.md R131; 41_primary.md R150; 44_secondary.md R241, R245, R246; 20_memory.md R62). -/
def Obligations.FetchReadsInstruction : Prop :=
  (∀ (s : State) (i : Instr), s.run = .running → i.wellFormed = true →
     (i.isa = .primary → s.sel = 0x00#8 → BytesAt s s.pc (encode i) → step s = finishStep s (exec i s)) ∧
     (i.isa = .secondary → s.sel = 0x01#8 → ∀ (op : Byte) (operands : List Byte), encode i = op :: operands →
       s.memRead s.lr = some op → BytesAt (s.setIr op) (s.lr + 1) operands → step s = finishStep s (exec i s))) ∧
  (∀ s : State, s.run = .running →
     (s.sel = 0x00#8 → s.memRead s.pc = none → step s = .fault .readUnwritten) ∧
     (s.sel = 0x01#8 → s.memRead s.lr = none → step s = .fault .readUnwritten) ∧
     (s.sel = 0x00#8 → ∀ (i : Instr) (k : Nat), i.isa = .primary → i.wellFormed = true → 0 < k →
       k < (encode i).length → BytesAt s s.pc ((encode i).take k) → s.memRead (s.pc + BitVec.ofNat 16 k) = none →
       step s = .fault .readUnwritten) ∧
     (s.sel = 0x01#8 → ∀ (i : Instr) (op : Byte) (o : Operation) (m : Mode), secondaryTable i = some (op, o, m) →
       m = .imm ∨ m = .rel → s.memRead s.lr = some op → step s = finishStep s (exec i s)) ∧
     (s.sel = 0x01#8 → ∀ (i : Instr) (op : Byte) (o : Operation) (m : Mode) (k : Nat),
       secondaryTable i = some (op, o, m) → m ≠ .imm → m ≠ .rel → (m.cls = .expensive → s.cfg.expExtraS ≤ s.t) →
       0 < k → k < (encode i).length → s.memRead s.lr = some op →
       BytesAt (s.setIr op) (s.lr + 1) (((encode i).drop 1).take (k - 1)) →
       (s.setIr op).memRead (s.lr + BitVec.ofNat 16 k) = none → step s = .fault .readUnwritten))

/-- The end of a dispatch step in the slice loop: a changed interpreter ends the slice SWITCHED, before a negative T ends it
EXHAUSTED; a deferral has ended it already; a fault stops (40_scheduler_dispatch.md R130, R132, R137). With RUN = IDLE a
step is the host's next command, or nothing (R121; 10_state.md R38). -/
def Obligations.SliceLoop : Prop :=
  (∀ (s t : State) (i j : Interp), interp s.sel = some i → interp t.sel = some j →
     (t.run = .running → finishStep s (.next t) =
       if j ≠ i then .next { t with run := .idle, answer := some (.sliceExit .switched t.sliceN) }
       else if t.t < 0 then .next { t with run := .idle, answer := some (.sliceExit .exhausted t.sliceN) }
       else .next t) ∧
     (t.run = .idle → finishStep s (.next t) = .next t) ∧
     (∀ f : Fault, finishStep s (.fault f) = .fault f) ∧
     ((i = .primary ↔ s.sel = 0x00#8) ∧ (i = .secondary ↔ s.sel = 0x01#8 ∨ s.sel = 0x02#8))) ∧
  (∀ s : State, s.run = .idle →
     (s.pending = [] → step s = .next s) ∧
     (∀ (c : Command) (rest : List Command), s.pending = c :: rest →
       step s = runCommand c { s with pending := rest, answer := none }))

/-- What a dispatch step leaves: a slice that goes on has its interpreter and T >= 0; a slice that ends has answered
(reason, N), EXHAUSTED with T < 0, SWITCHED with another interpreter, DEFERRED with the state it found
(40_scheduler_dispatch.md R128 to R132). -/
def Obligations.RunningStepOutcomes : Prop :=
  ∀ s t : State, s.run = .running → step s = .next t →
    t.sliceN = s.sliceN ∧
    ((t.run = .running ∧ t.answer = s.answer ∧ interp t.sel = interp s.sel ∧ 0 ≤ t.t) ∨
     (t.run = .idle ∧ t.answer = some (.sliceExit .exhausted s.sliceN) ∧ interp t.sel = interp s.sel ∧ t.t < 0) ∨
     (t.run = .idle ∧ t.answer = some (.sliceExit .switched s.sliceN) ∧ interp t.sel ≠ interp s.sel) ∨
     (∃ r : DeferReason, t = { s with run := .idle, answer := some (.sliceExit (.deferred r) s.sliceN) }))

/-! ### The host's commands -/

/-- START_SLICE(N): T <- floor((N - OVH) / 2) - MAXT and RUN <- RUNNING for a legal N; an illegal one and a reserved SEL
stop by name. START_SLICE(UNBOUNDED): T <- TMAX, in every effect the START_SLICE of the largest even legal N, 296 or
300 with the defaults (40_scheduler_dispatch.md R122, R123, R124). -/
def Obligations.SliceEntry : Prop :=
  (∀ (s : State) (n : Nat) (i : Interp), interp s.sel = some i →
    runCommand (.startSlice (.cycles n)) s =
      if (overhead s.cfg i : Int) + 2 * reserve s.cfg i ≤ n ∧
          (n : Int) ≤ overhead s.cfg i + 2 * (s.cfg.tmax + reserve s.cfg i) + 1 then
        .next { s with t := ((n : Int) - overhead s.cfg i) / 2 - reserve s.cfg i, run := .running, sliceN := n }
      else .fault .budgetPrecondition) ∧
  (∀ (s : State) (b : Budget), s.sel ≠ 0x00#8 → s.sel ≠ 0x01#8 → s.sel ≠ 0x02#8 →
    runCommand (.startSlice b) s = .fault .selReserved) ∧
  (∀ c : Config, overhead c .primary = c.ovhP ∧ overhead c .secondary = c.ovhS ∧
    reserve c .primary = c.maxtP ∧ reserve c .secondary = c.maxtS) ∧
  (∀ n : Nat, (budgetLegal Config.default .primary n = true ↔ 42 ≤ n ∧ n ≤ 297) ∧
    (budgetLegal Config.default .secondary n = true ↔ 46 ≤ n ∧ n ≤ 301)) ∧
  (∀ (s : State) (i : Interp), interp s.sel = some i →
    runCommand (.startSlice .unbounded) s =
      .next { s with t := s.cfg.tmax, run := .running,
                     sliceN := (overhead s.cfg i + 2 * (s.cfg.tmax + reserve s.cfg i)).toNat } ∧
    runCommand (.startSlice .unbounded) s =
      runCommand (.startSlice (.cycles (overhead s.cfg i + 2 * (s.cfg.tmax + reserve s.cfg i)).toNat)) s) ∧
  (overhead Config.default .primary + 2 * (Config.default.tmax + reserve Config.default .primary)).toNat = 296 ∧
  (overhead Config.default .secondary + 2 * (Config.default.tmax + reserve Config.default .secondary)).toNat = 300

/-- HOST_READ and HOST_WRITE, through the register windows: a byte written is the byte read, and every other byte is
as before (40_scheduler_dispatch.md R136; 20_memory.md R62, R63). -/
def Obligations.HostAccess : Prop :=
  ∀ (s : State) (addr : Word),
    (∀ v : Byte, s.memRead addr = some v →
      runCommand (.hostRead addr) s = .next { s with answer := some (.byteRead v) }) ∧
    (s.memRead addr = none → runCommand (.hostRead addr) s = .fault .readUnwritten) ∧
    (∀ v : Byte, ∃ t : State, runCommand (.hostWrite addr v) s = .next t ∧ t = s.memWrite addr v ∧
      t.memRead addr = some v ∧ (∀ b : Word, b ≠ addr → t.memRead b = s.memRead b) ∧
      { t with mem := s.mem, sysfn := s.sysfn, scratch := s.scratch } = s)

/-- The register windows: two bytes are SYSFN, eight are SCRATCH, for every read and write; elsewhere the byte is that
of M, and a write there touches neither register (20_memory.md R62, R63, R66). -/
def Obligations.RegisterWindows : Prop :=
  ∀ s : State, s.cfg.AddressesWf →
    (s.memRead (BitVec.ofNat 16 s.cfg.sysfnAddr) = some (loByte s.sysfn)) ∧
    (s.memRead (BitVec.ofNat 16 (s.cfg.sysfnAddr + 1)) = some (hiByte s.sysfn)) ∧
    (∀ k : Nat, k < 8 → s.memRead (BitVec.ofNat 16 (s.cfg.scratchAddr + k)) = some (s.scratch.get k)) ∧
    (∀ addr : Word, OutsideWindows s.cfg addr → s.memRead addr = Memory.read s.mem addr.toNat) ∧
    (∀ v : Byte,
      s.memWrite (BitVec.ofNat 16 s.cfg.sysfnAddr) v = { s with sysfn := mkWord (hiByte s.sysfn) v } ∧
      s.memWrite (BitVec.ofNat 16 (s.cfg.sysfnAddr + 1)) v = { s with sysfn := mkWord v (loByte s.sysfn) } ∧
      (∀ k : Nat, k < 8 → s.memWrite (BitVec.ofNat 16 (s.cfg.scratchAddr + k)) v =
        { s with scratch := s.scratch.set k v }) ∧
      (∀ addr : Word, OutsideWindows s.cfg addr →
        s.memWrite addr v = { s with mem := Memory.write s.mem addr.toNat v }))

/-- RESET: PC, SEL, INSVC, SP and RUN; every other register is kept, and no byte outside the windows holds a value
afterwards (70_reset_and_hazards.md R360; that memory is forgotten is the model's reading, log entry 8). The machine
right after reset: PC = 0x0200, the primary interpreter, no interrupt in service, SP = 0x00, IDLE (10_state.md R40; the
registers that R40 leaves unspecified are zero in the model, log entry 1, and nothing is stated of them). -/
def Obligations.Reset : Prop :=
  (∀ s : State,
     runCommand .reset s =
       .next { s with pc := s.cfg.resetPc, sel := 0x00#8, insvc := false, sp := 0x00#8, run := .idle, mem := [] }) ∧
  (State.reset.pc = 0x0200#16 ∧ State.reset.sel = 0x00#8 ∧ State.reset.insvc = false ∧ State.reset.sp = 0x00#8 ∧
   State.reset.run = .idle ∧ State.reset.cfg = Config.default ∧
   (∀ addr : Word, OutsideWindows Config.default addr → State.reset.memRead addr = none))

/-! ### The primary set and the Extended-Opcode Page -/

/-- LDI and LDWI (41_primary.md R151, R152). -/
def Obligations.ImmediateLoads : Prop :=
  (∀ (d : Byte) (s : State), encode (.ldi d) = [0x01#8, d] ∧
    exec (.ldi d) s = .next { s with pc := s.pc + 2, ac := zextWord d, t := s.t - s.cfg.costP.ldi }) ∧
  (∀ (lo hi : Byte) (s : State), encode (.ldwi (mkWord hi lo)) = [0x02#8, lo, hi] ∧
    exec (.ldwi (mkWord hi lo)) s =
      .next { s with pc := s.pc + 3, ac := mkWord hi lo, t := s.t - s.cfg.costP.ldwi }) ∧
  Config.default.costP.ldi = 8 ∧ Config.default.costP.ldwi = 10

/-- LD and LDW: the zero-page byte or word, the word wrapping inside the zero page; a byte without a value stops by
name (41_primary.md R153, R154; 20_memory.md R65). -/
def Obligations.ZeroPageLoads : Prop :=
  (∀ (a : Byte) (s : State), encode (.ld a) = [0x03#8, a] ∧
    (∀ v : Byte, s.memRead (mkWord 0x00#8 a) = some v →
      exec (.ld a) s = .next { s with pc := s.pc + 2, ac := mkWord 0x00#8 v, t := s.t - s.cfg.costP.ld }) ∧
    (s.memRead (mkWord 0x00#8 a) = none → exec (.ld a) s = .fault .readUnwritten)) ∧
  (∀ (a : Byte) (s : State), encode (.ldw a) = [0x04#8, a] ∧
    (∀ lo hi : Byte, s.memRead (mkWord 0x00#8 a) = some lo → s.memRead (mkWord 0x00#8 (a + 1)) = some hi →
      exec (.ldw a) s = .next { s with pc := s.pc + 2, ac := mkWord hi lo, t := s.t - s.cfg.costP.ldw }) ∧
    (s.memRead (mkWord 0x00#8 a) = none ∨ s.memRead (mkWord 0x00#8 (a + 1)) = none →
      exec (.ldw a) s = .fault .readUnwritten)) ∧
  Config.default.costP.ld = 11 ∧ Config.default.costP.ldw = 10

/-- ST and STW: the stored bytes read back, every other byte of memory as before, no register but PC and T changed
outside the windows (41_primary.md R155, R156; 20_memory.md R63, R65). -/
def Obligations.ZeroPageStores : Prop :=
  (∀ (a : Byte) (s : State), encode (.st a) = [0x05#8, a] ∧ ∃ t : State, exec (.st a) s = .next t ∧
    t = { s.memWrite (mkWord 0x00#8 a) (loByte s.ac) with pc := s.pc + 2, t := s.t - s.cfg.costP.st } ∧
    t.memRead (mkWord 0x00#8 a) = some (loByte s.ac) ∧
    (∀ b : Word, b ≠ mkWord 0x00#8 a → t.memRead b = s.memRead b) ∧
    { t with mem := s.mem, sysfn := s.sysfn, scratch := s.scratch } =
      { s with pc := s.pc + 2, t := s.t - s.cfg.costP.st }) ∧
  (∀ (a : Byte) (s : State), encode (.stw a) = [0x06#8, a] ∧ ∃ t : State, exec (.stw a) s = .next t ∧
    t = { (s.memWrite (mkWord 0x00#8 a) (loByte s.ac)).memWrite (mkWord 0x00#8 (a + 1)) (hiByte s.ac) with
            pc := s.pc + 2, t := s.t - s.cfg.costP.stw } ∧
    t.memRead (mkWord 0x00#8 a) = some (loByte s.ac) ∧ t.memRead (mkWord 0x00#8 (a + 1)) = some (hiByte s.ac) ∧
    (∀ b : Word, b ≠ mkWord 0x00#8 a → b ≠ mkWord 0x00#8 (a + 1) → t.memRead b = s.memRead b) ∧
    { t with mem := s.mem, sysfn := s.sysfn, scratch := s.scratch } =
      { s with pc := s.pc + 2, t := s.t - s.cfg.costP.stw }) ∧
  Config.default.costP.st = 8 ∧ Config.default.costP.stw = 10

/-- ADDW and SUBW: the byte sums joined by the carry of 00_scope.md R10 give AC + w and AC - w mod 2^16, and no other
state but PC and T changes (41_primary.md R157, R158). -/
def Obligations.AddSubWord : Prop :=
  (∀ (a lo hi : Byte) (s : State), s.memRead (mkWord 0x00#8 a) = some lo →
    s.memRead (mkWord 0x00#8 (a + 1)) = some hi →
    exec (.addw a) s =
      .next { s with pc := s.pc + 2, ac := s.ac + mkWord hi lo, t := s.t - s.cfg.costP.addw } ∧
    exec (.subw a) s =
      .next { s with pc := s.pc + 2, ac := s.ac - mkWord hi lo, t := s.t - s.cfg.costP.subw }) ∧
  (∀ v w : Word,
    v + w = mkWord (hiByte v + hiByte w +
      bitByte (carry8 (loByte v) (loByte w) (loByte v + loByte w))) (loByte v + loByte w) ∧
    v - w = mkWord (hiByte v + hiByte (~~~w) +
      bitByte (carry8 (loByte v) (loByte (~~~w)) (loByte v + loByte (~~~w) + 1))) (loByte v + loByte (~~~w) + 1)) ∧
  (∀ (a : Byte) (s : State), s.memRead (mkWord 0x00#8 a) = none ∨ s.memRead (mkWord 0x00#8 (a + 1)) = none →
    exec (.addw a) s = .fault .readUnwritten ∧ exec (.subw a) s = .fault .readUnwritten) ∧
  (∀ a : Byte, encode (.addw a) = [0x07#8, a] ∧ encode (.subw a) = [0x08#8, a]) ∧
  Config.default.costP.addw = 14 ∧ Config.default.costP.subw = 14

/-- The sign-comparison carry is the carry out of the byte addition, for every a, b and carry in (00_scope.md R10). -/
def Obligations.SignComparisonCarry : Prop :=
  ∀ (a b : Byte) (c : Bool), carry8 a b (a + b + bitByte c) = decide (256 ≤ a.toNat + b.toNat + c.toNat)

/-- LUP: the ROS byte at AC + d; it always completes (41_primary.md R170; 20_memory.md R68). That ROS is a list in which
an address that is not listed reads 0x00 is the model's choice (log entry 17). -/
def Obligations.TableLookup : Prop :=
  (∀ (d : Byte) (s : State), encode (.lup d) = [0x14#8, d] ∧
    exec (.lup d) s = .next { s with
      pc := s.pc + 2
      ac := mkWord 0x00#8 ((Memory.read s.cfg.ros (s.ac + mkWord 0x00#8 d).toNat).getD 0x00#8)
      t := s.t - s.cfg.costP.lup }) ∧
  Config.default.costP.lup = 13 ∧ Config.default.ros = []

/-- The seven primary branches: the absolute target where the condition on AC, read as two's complement, holds, else
the next instruction; nothing but PC and T changes (41_primary.md R159 to R165, R172). -/
def Obligations.PrimaryBranches : Prop :=
  (∀ (w : Word) (s : State),
    exec (.bra w) s = .next { s with pc := w, t := s.t - s.cfg.costP.bra } ∧
    exec (.beq w) s = .next { s with pc := if s.ac.toInt = 0 then w else s.pc + 3, t := s.t - s.cfg.costP.beq } ∧
    exec (.bne w) s = .next { s with pc := if s.ac.toInt ≠ 0 then w else s.pc + 3, t := s.t - s.cfg.costP.bne } ∧
    exec (.blt w) s = .next { s with pc := if s.ac.toInt < 0 then w else s.pc + 3, t := s.t - s.cfg.costP.blt } ∧
    exec (.bge w) s = .next { s with pc := if 0 ≤ s.ac.toInt then w else s.pc + 3, t := s.t - s.cfg.costP.bge } ∧
    exec (.bgt w) s = .next { s with pc := if 0 < s.ac.toInt then w else s.pc + 3, t := s.t - s.cfg.costP.bgt } ∧
    exec (.ble w) s = .next { s with pc := if s.ac.toInt ≤ 0 then w else s.pc + 3, t := s.t - s.cfg.costP.ble }) ∧
  (∀ lo hi : Byte,
    encode (.bra (mkWord hi lo)) = [0x09#8, lo, hi] ∧ encode (.beq (mkWord hi lo)) = [0x0A#8, lo, hi] ∧
    encode (.bne (mkWord hi lo)) = [0x0B#8, lo, hi] ∧ encode (.blt (mkWord hi lo)) = [0x0C#8, lo, hi] ∧
    encode (.bge (mkWord hi lo)) = [0x0D#8, lo, hi] ∧ encode (.bgt (mkWord hi lo)) = [0x0E#8, lo, hi] ∧
    encode (.ble (mkWord hi lo)) = [0x0F#8, lo, hi]) ∧
  (∀ v : Word, (acNegative v = v.getLsbD 15) ∧ (acZero v = true ↔ hiByte v = 0x00#8 ∧ loByte v = 0x00#8) ∧
    (acNegative v = true ↔ v.toInt < 0) ∧ (acZero v = true ↔ v.toInt = 0)) ∧
  Config.default.costP.bra = 7 ∧ Config.default.costP.beq = 14 ∧ Config.default.costP.bne = 14 ∧
  Config.default.costP.blt = 14 ∧ Config.default.costP.bge = 14 ∧ Config.default.costP.bgt = 14 ∧
  Config.default.costP.ble = 14

/-- CALL and RET: the return address is the following instruction's, kept in LR; nothing is pushed (41_primary.md
R166, R167). That RET never stops, where R167 has ReadUnwritten for an LR that holds no value, is the model's choice: every
register holds a value (log entry 1). -/
def Obligations.CallReturn : Prop :=
  (∀ (lo hi : Byte) (s : State), encode (.call (mkWord hi lo)) = [0x10#8, lo, hi] ∧
    exec (.call (mkWord hi lo)) s =
      .next { s with lr := s.pc + 3, pc := mkWord hi lo, t := s.t - s.cfg.costP.call }) ∧
  (∀ s : State, encode .ret = [0x11#8] ∧
    exec .ret s = .next { s with pc := s.lr, t := s.t - s.cfg.costP.ret }) ∧
  Config.default.costP.call = 13 ∧ Config.default.costP.ret = 8

/-- PUSH and POP of LR on the full-descending zero-page stack, and their round trip (41_primary.md R168, R169;
20_memory.md R67). -/
def Obligations.PushPop : Prop :=
  (∀ s : State, encode .push = [0x12#8] ∧ ∃ t : State, exec .push s = .next t ∧
    t = { (s.memWrite (mkWord 0x00#8 (s.sp - 2)) (loByte s.lr)).memWrite (mkWord 0x00#8 (s.sp - 1)) (hiByte s.lr) with
            pc := s.pc + 1, sp := s.sp - 2, t := s.t - s.cfg.costP.push } ∧
    t.memRead (mkWord 0x00#8 (s.sp - 2)) = some (loByte s.lr) ∧
    t.memRead (mkWord 0x00#8 (s.sp - 1)) = some (hiByte s.lr) ∧
    (∀ b : Word, b ≠ mkWord 0x00#8 (s.sp - 2) → b ≠ mkWord 0x00#8 (s.sp - 1) → t.memRead b = s.memRead b) ∧
    { t with mem := s.mem, sysfn := s.sysfn, scratch := s.scratch } =
      { s with pc := s.pc + 1, sp := s.sp - 2, t := s.t - s.cfg.costP.push } ∧
    (∀ v : Word, exec .pop { t with lr := v } =
      .next { t with pc := s.pc + 2, lr := s.lr, sp := s.sp, t := t.t - s.cfg.costP.pop })) ∧
  (∀ s : State, encode .pop = [0x13#8] ∧
    (∀ lo hi : Byte, s.memRead (mkWord 0x00#8 s.sp) = some lo → s.memRead (mkWord 0x00#8 (s.sp + 1)) = some hi →
      exec .pop s =
        .next { s with pc := s.pc + 1, lr := mkWord hi lo, sp := s.sp + 2, t := s.t - s.cfg.costP.pop }) ∧
    (s.memRead (mkWord 0x00#8 s.sp) = none ∨ s.memRead (mkWord 0x00#8 (s.sp + 1)) = none →
      exec .pop s = .fault .readUnwritten)) ∧
  Config.default.costP.push = 13 ∧ Config.default.costP.pop = 13

/-- NEGW, ADDI and SUBI (42_extended.md R191, R192, R193). -/
def Obligations.ExtendedArithmetic : Prop :=
  (∀ s : State, encode .negw = [0x17#8, 0x01#8] ∧
    exec .negw s = .next { s with pc := s.pc + 2, ac := 0 - s.ac, t := s.t - s.cfg.costX.negw }) ∧
  (∀ (b : Byte) (s : State), encode (.addi b) = [0x17#8, 0x02#8, b] ∧
    exec (.addi b) s =
      .next { s with pc := s.pc + 3, ac := s.ac + mkWord 0x00#8 b, t := s.t - s.cfg.costX.addi }) ∧
  (∀ (b : Byte) (s : State), encode (.subi b) = [0x17#8, 0x03#8, b] ∧
    exec (.subi b) s =
      .next { s with pc := s.pc + 3, ac := s.ac - mkWord 0x00#8 b, t := s.t - s.cfg.costX.subi }) ∧
  Config.default.costX.negw = 12 ∧ Config.default.costX.addi = 14 ∧ Config.default.costX.subi = 14

/-- BRAL, BNEL and BEQL: PCn + rel mod 2^16, PCn the address after the fourth byte (42_extended.md R194 to R196). -/
def Obligations.LongBranches : Prop :=
  (∀ (w : Word) (s : State),
    exec (.bral w) s = .next { s with pc := s.pc + 4 + w, t := s.t - s.cfg.costX.bral } ∧
    exec (.bnel w) s =
      .next { s with pc := if s.ac ≠ 0 then s.pc + 4 + w else s.pc + 4, t := s.t - s.cfg.costX.bnel } ∧
    exec (.beql w) s =
      .next { s with pc := if s.ac = 0 then s.pc + 4 + w else s.pc + 4, t := s.t - s.cfg.costX.beql }) ∧
  (∀ lo hi : Byte,
    encode (.bral (mkWord hi lo)) = [0x17#8, 0x04#8, lo, hi] ∧
    encode (.bnel (mkWord hi lo)) = [0x17#8, 0x05#8, lo, hi] ∧
    encode (.beql (mkWord hi lo)) = [0x17#8, 0x06#8, lo, hi]) ∧
  Config.default.costX.bral = 14 ∧ Config.default.costX.bnel = 14 ∧ Config.default.costX.beql = 14

/-! ### SYS and RTI -/

/-- SYS not admitted: T + D < 0 leaves every register, memory and T as they are and ends the slice DEFERRED_SYS
whatever SYSFN holds; with D = 0 and T >= 0 the call is admitted (43_sys.md R212, R213). -/
def Obligations.SysDeferral : Prop :=
  (∀ (d : Byte) (s : State), encode (.sys d) = [0x15#8, d] ∧
    (d.toInt ≤ 0 → s.t + d.toInt < 0 →
      exec (.sys d) s = .next { s with run := .idle, answer := some (.sliceExit (.deferred .sys) s.sliceN) }) ∧
    (0 < d.toInt → exec (.sys d) s = .fault .sysOperandReserved)) ∧
  (∀ (d : Byte) (s t : State), d.toInt ≤ 0 → 0 ≤ s.t + d.toInt → s.run = .running → exec (.sys d) s = .next t →
    t.run = .running)

/-- The SYS call table: SYSFN designates slot k exactly when it is SYS_BASE + SYS_STRIDE * k, and nothing else
(43_sys.md R214, R218; 20_memory.md R69). -/
def Obligations.SlotTable : Prop :=
  ∀ (c : Config) (f : Word), 1 ≤ c.sysStride →
    (∀ slot : Slot, slotOf c f = some slot ↔
      ∃ k : Nat, c.slots[k]? = some slot ∧ f.toNat = c.sysBase + c.sysStride * k) ∧
    (slotOf c f = none ↔ ∀ k : Nat, k < c.nslots → f.toNat ≠ c.sysBase + c.sysStride * k)

/-- An admitted SYS stops by name where it designates no slot, declares less than its slot needs, or the routine's report
is outside 1 to MAXT_P - D, in this order; otherwise it completes: the routine's state with T <- T + R (43_sys.md R210,
R211, R214, R217). The routine sees PC at the following instruction, and a byte without a value that it reads stops by
name. A configured native routine does what its program does (see NativeContract): that its program is a free value is
the model's choice (log entry 6), and the form of the program, with its read fault, is the model's reading of the
contract of R215 (log entry 14). -/
def Obligations.SysCall : Prop :=
  (∀ (d : Byte) (s : State), d.toInt ≤ 0 → 0 ≤ s.t + d.toInt →
     (slotOf s.cfg s.sysfn = none → exec (.sys d) s = .fault .sysfnNotASlot) ∧
     (∀ slot : Slot, slotOf s.cfg s.sysfn = some slot →
       (-d.toInt < slot.extra → exec (.sys d) s = .fault .sysUnderdeclared) ∧
       ((slot.extra : Int) ≤ -d.toInt →
         (∀ f : Fault, runRoutine slot { s with pc := s.pc + 2 } = .error f → exec (.sys d) s = .fault f) ∧
         (∀ (v : State) (r : Int), runRoutine slot { s with pc := s.pc + 2 } = .ok (v, r) →
           ¬ (1 ≤ -r ∧ -r ≤ s.cfg.maxtP - d.toInt) → exec (.sys d) s = .fault .overrun)))) ∧
  (∀ (d : Byte) (s v : State) (slot : Slot) (r : Int), d.toInt ≤ 0 → 0 ≤ s.t + d.toInt →
    slotOf s.cfg s.sysfn = some slot → (slot.extra : Int) ≤ -d.toInt →
    runRoutine slot { s with pc := s.pc + 2 } = .ok (v, r) → 1 ≤ -r → -r ≤ s.cfg.maxtP - d.toInt →
    exec (.sys d) s = .next { v with t := s.t + r } ∧ v.t = s.t ∧ v.cfg = s.cfg ∧ v.ipc = s.ipc ∧ v.iac = s.iac ∧
      v.isel = s.isel ∧ v.insvc = s.insvc ∧ v.run = s.run) ∧
  (∀ (slot : Slot) (id : Nat) (u : State), slot.routine = .native id →
    runRoutine slot u = runNative (nativeRoutine id (nativeView u)) u ∧
    nativeView u = { pc := u.pc, ac := u.ac, lr := u.lr, sp := u.sp, tmp := u.tmp, scratch := u.scratch.bytes,
                     sysfn := u.sysfn, sel := u.sel, cfg := u.cfg })

/-- The contract of a configured native routine (43_sys.md R215, R216; 20_memory.md R62, R63; the form of a program is
the model's, log entries 6 and 14). Its reads and writes go through the windows, in its own order; a read of a byte that
holds no value stops by name; its return writes PC, AC, LR, SP and TMP, and SEL only to hand over to the secondary
interpreter, at either of its two entries. Whatever it does, T, the save area, INSVC, RUN and the configuration are as
before. What any routine of a slot does, or the fault it stops with, depends on none of T, IPC, IAC, ISEL, INSVC and RUN. -/
def Obligations.NativeContract : Prop :=
  (∀ (s : State) (addr : Word) (next : Byte → NativeProgram),
    (∀ v : Byte, s.memRead addr = some v → runNative (.read addr next) s = runNative (next v) s) ∧
    (s.memRead addr = none → runNative (.read addr next) s = .error .readUnwritten)) ∧
  (∀ (s : State) (p : NativeProgram),
    (∀ (addr : Word) (v : Byte), runNative (.write addr v p) s = runNative p (s.memWrite addr v)) ∧
    (∀ (k : Fin 8) (v : Byte), runNative (.writeScratch k v p) s =
      runNative p { s with scratch := s.scratch.set k v }) ∧
    (∀ v : Word, runNative (.writeSysfn v p) s = runNative p { s with sysfn := v })) ∧
  (∀ (s : State) (r : NativeResult) (sel : Byte),
    (r.handOver = none ∧ sel = s.sel) ∨ (r.handOver = some .fetch ∧ sel = 0x01#8) ∨
      (r.handOver = some .execute ∧ sel = 0x02#8) →
    runNative (.done r) s =
      .ok ({ s with pc := r.pc, ac := r.ac, lr := r.lr, sp := r.sp, tmp := r.tmp, sel := sel }, r.report)) ∧
  (∀ (p : NativeProgram) (s v : State) (r : Int), runNative p s = .ok (v, r) →
    { v with pc := s.pc, ac := s.ac, lr := s.lr, sp := s.sp, tmp := s.tmp, scratch := s.scratch, sysfn := s.sysfn,
             sel := s.sel, mem := s.mem } = s ∧
    (v.sel = s.sel ∨ v.sel = 0x01#8 ∨ v.sel = 0x02#8)) ∧
  (∀ (p : NativeProgram) (s : State) (f : Fault), runNative p s = .error f → f = .readUnwritten) ∧
  (∀ (slot : Slot) (s : State) (n : Int) (ipc iac : Word) (isel : Byte) (insvc : Bool) (run : Run),
    (∀ (v : State) (r : Int), runRoutine slot s = .ok (v, r) →
      runRoutine slot { s with t := n, ipc := ipc, iac := iac, isel := isel, insvc := insvc, run := run } =
        .ok ({ v with t := n, ipc := ipc, iac := iac, isel := isel, insvc := insvc, run := run }, r)) ∧
    (∀ f : Fault, runRoutine slot s = .error f →
      runRoutine slot { s with t := n, ipc := ipc, iac := iac, isel := isel, insvc := insvc, run := run } = .error f))

/-- SYS_Placeholder: the only effects are PC <- PCn and T <- T - 10. SYS_RunSecondary: LR <- AC, SEL <- 0x01, PC at PCn, AC
kept, 12 ticks; the slice ends SWITCHED (43_sys.md R219, R220). -/
def Obligations.SysPlaceholderAndRunSecondary : Prop :=
  (∀ (d : Byte) (s : State) (slot : Slot), d.toInt ≤ 0 → 0 ≤ s.t + d.toInt → slotOf s.cfg s.sysfn = some slot →
    (slot.extra : Int) ≤ -d.toInt → slot.routine = .placeholder → slot.report = -10 → 10 ≤ s.cfg.maxtP - d.toInt →
    exec (.sys d) s = .next { s with pc := s.pc + 2, t := s.t - 10 }) ∧
  (∀ slot ∈ Config.default.slots, slot.routine = .placeholder → slot.report = -10) ∧
  (∀ (d : Byte) (s : State) (slot : Slot), d.toInt ≤ 0 → 0 ≤ s.t + d.toInt → slotOf s.cfg s.sysfn = some slot →
     (slot.extra : Int) ≤ -d.toInt → slot.routine = .runSecondary → slot.report = -12 → 12 ≤ s.cfg.maxtP - d.toInt →
     s.run = .running → s.sel = 0x00#8 →
     exec (.sys d) s = .next { s with pc := s.pc + 2, lr := s.ac, sel := 0x01#8, t := s.t - 12 } ∧
     finishStep s (exec (.sys d) s) =
       .next { s with pc := s.pc + 2, lr := s.ac, sel := 0x01#8, t := s.t - 12, run := .idle,
                      answer := some (.sliceExit .switched s.sliceN) })

/-- SYS_Multiply16, one dispatch: one bit of B is added in, A and MASK are doubled, and the call is issued again until
MASK has been shifted out, when AC <- C (43_sys.md R221). -/
def Obligations.SysMultiplyStep : Prop :=
  ∀ (d : Byte) (s : State) (slot : Slot), d.toInt ≤ 0 → 0 ≤ s.t + d.toInt → slotOf s.cfg s.sysfn = some slot →
    (slot.extra : Int) ≤ -d.toInt → slot.routine = .multiply16 → slot.report = -20 → 20 ≤ s.cfg.maxtP - d.toInt →
    ∀ a b c mask c' : Word, a = mkWord s.scratch.b1 s.scratch.b0 → b = mkWord s.scratch.b3 s.scratch.b2 →
      c = mkWord s.scratch.b5 s.scratch.b4 → mask = mkWord s.scratch.b7 s.scratch.b6 →
      c' = (if b &&& mask ≠ 0 then c + a else c) →
      exec (.sys d) s = .next { s with
        pc := if mask * 2 ≠ 0 then s.pc else s.pc + 2
        ac := if mask * 2 ≠ 0 then s.ac else c'
        scratch :=
          { b0 := loByte (a * 2), b1 := hiByte (a * 2), b2 := s.scratch.b2, b3 := s.scratch.b3,
            b4 := loByte c', b5 := hiByte c', b6 := loByte (mask * 2), b7 := hiByte (mask * 2) }
        t := s.t - 20 }

/-- The states of a call that is issued again and again: dispatch k runs with T = `ticks k`, as the slice it falls in
gives it. -/
def redispatch (d : Byte) (ticks : Nat → Int) : Nat → State → Host.Outcome State Fault Refusal
  | 0, s => .next s
  | n + 1, s =>
    match redispatch d ticks n s with
    | .next u => exec (.sys d) { u with t := ticks n }
    | other => other

/-- The 16-bit product: called with MASK = 1, SYS_Multiply16 ends after 16 admitted dispatches, whatever slices they
fall in, with AC = C = C0 + A0 * B0 mod 2^16, A = 0, MASK = 0, B unchanged and PC after the SYS; until then PC is at
the SYS (43_sys.md R221, R224). -/
def Obligations.MultiplyProduct : Prop :=
  ∀ (d : Byte) (s : State) (slot : Slot) (ticks : Nat → Int), d.toInt ≤ 0 → (∀ k, 0 ≤ ticks k + d.toInt) →
    slotOf s.cfg s.sysfn = some slot → (slot.extra : Int) ≤ -d.toInt → slot.routine = .multiply16 →
    slot.report = -20 → 20 ≤ s.cfg.maxtP - d.toInt → s.scratch.b6 = 0x01#8 → s.scratch.b7 = 0x00#8 →
    ∀ product : Word, product = mkWord s.scratch.b5 s.scratch.b4 +
        mkWord s.scratch.b1 s.scratch.b0 * mkWord s.scratch.b3 s.scratch.b2 →
      redispatch d ticks 16 s = .next { s with
        pc := s.pc + 2, ac := product
        scratch := { b0 := 0x00#8, b1 := 0x00#8, b2 := s.scratch.b2, b3 := s.scratch.b3,
                     b4 := loByte product, b5 := hiByte product, b6 := 0x00#8, b7 := 0x00#8 }
        t := ticks 15 - 20 } ∧
      ∀ k : Nat, 0 < k → k < 16 → ∃ u : State, redispatch d ticks k s = .next u ∧ u.pc = s.pc ∧ u.ac = s.ac

/-- SYS_CopyBytes, one dispatch: min(CNT, 4) bytes copied in ascending order, SRC, DST and CNT written back after the
copy, and the call issued again while bytes are left (43_sys.md R222). -/
def Obligations.SysCopyStep : Prop :=
  ∀ (d : Byte) (s u : State) (slot : Slot) (n : Nat), d.toInt ≤ 0 → 0 ≤ s.t + d.toInt →
    slotOf s.cfg s.sysfn = some slot → (slot.extra : Int) ≤ -d.toInt → slot.routine = .copyBytes →
    slot.report = -24 → 24 ≤ s.cfg.maxtP - d.toInt → n = min s.scratch.b4.toNat 4 →
    ∀ src dst : Word, src = mkWord s.scratch.b1 s.scratch.b0 → dst = mkWord s.scratch.b3 s.scratch.b2 →
      copyBytes n src dst s = .ok u →
      exec (.sys d) s = .next { u with
        pc := if n < s.scratch.b4.toNat then s.pc else s.pc + 2
        scratch := { u.scratch with
          b0 := loByte (src + BitVec.ofNat 16 n), b1 := hiByte (src + BitVec.ofNat 16 n)
          b2 := loByte (dst + BitVec.ofNat 16 n), b3 := hiByte (dst + BitVec.ofNat 16 n)
          b4 := s.scratch.b4 - BitVec.ofNat 8 n }
        t := s.t - 24 }

/-- The copy itself, overlapping ranges included: bytes are copied in ascending order, so byte i of the destination
reads what the source byte read after the first i bytes were copied; a source byte that no earlier destination byte is
reads as at first, and a destination that starts k bytes after the source repeats its first k bytes. Every other byte is
as before, and nothing but memory and the window registers changes. The copy completes exactly where every source byte
holds a value or is an earlier destination byte; else it stops by name (43_sys.md R222; 20_memory.md R62). -/
def Obligations.CopyBytesMoves : Prop :=
  ∀ (n : Nat) (src dst : Word) (s : State), n ≤ 4 →
    ((∀ i : Nat, i < n → s.memRead (src + BitVec.ofNat 16 i) ≠ none ∨
        ∃ j : Nat, j < i ∧ src + BitVec.ofNat 16 i = dst + BitVec.ofNat 16 j) →
      ∃ u : State, copyBytes n src dst s = .ok u) ∧
    ((∃ i : Nat, i < n ∧ s.memRead (src + BitVec.ofNat 16 i) = none ∧
        ∀ j : Nat, j < i → src + BitVec.ofNat 16 i ≠ dst + BitVec.ofNat 16 j) →
      copyBytes n src dst s = .error .readUnwritten) ∧
    (∀ u : State, copyBytes n src dst s = .ok u →
      (∀ i : Nat, i < n → ∃ (w : State) (v : Byte), copyBytes i src dst s = .ok w ∧
        w.memRead (src + BitVec.ofNat 16 i) = some v ∧ u.memRead (dst + BitVec.ofNat 16 i) = some v) ∧
      (∀ i : Nat, i < n → (∀ j : Nat, j < i → src + BitVec.ofNat 16 i ≠ dst + BitVec.ofNat 16 j) →
        u.memRead (dst + BitVec.ofNat 16 i) = s.memRead (src + BitVec.ofNat 16 i)) ∧
      (∀ k : Nat, 0 < k → k ≤ n → dst = src + BitVec.ofNat 16 k → ∀ i : Nat, i < n →
        u.memRead (dst + BitVec.ofNat 16 i) = s.memRead (src + BitVec.ofNat 16 (i % k))) ∧
      (∀ b : Word, (∀ i : Nat, i < n → b ≠ dst + BitVec.ofNat 16 i) → u.memRead b = s.memRead b) ∧
      { u with mem := s.mem, sysfn := s.sysfn, scratch := s.scratch } = s)

/-- SYS budget safety: an admitted SYS charges at least one tick and at most MAXT_P + K, K = -D, and leaves
T >= -MAXT_P (43_sys.md R223). -/
def Obligations.SysBudgetSafety : Prop :=
  ∀ (d : Byte) (s t : State), s.run = .running → exec (.sys d) s = .next t → t.run = .running →
    t.t < s.t ∧ s.t - t.t ≤ s.cfg.maxtP - d.toInt ∧ -(s.cfg.maxtP : Int) ≤ t.t

/-- RTI: deferred exactly when T - RTI_EXTRA < 0, with nothing restored; admitted with no interrupt in service it
stops by name; admitted in a handler it restores PC, AC and SEL, clears INSVC, and changes nothing else, and the
slice ends SWITCHED where the restored SEL selects the secondary interpreter (60_exceptions.md R338, R339). -/
def Obligations.InterruptReturn : Prop :=
  (∀ s : State, encode .rti = [0x16#8] ∧
    (s.t - s.cfg.rtiExtra < 0 →
      exec .rti s = .next { s with run := .idle, answer := some (.sliceExit (.deferred .rti) s.sliceN) }) ∧
    (0 ≤ s.t - s.cfg.rtiExtra → s.insvc = false → exec .rti s = .fault .rtiOutsideHandler) ∧
    (0 ≤ s.t - s.cfg.rtiExtra → s.insvc = true →
      exec .rti s = .next { s with pc := s.ipc, ac := s.iac, sel := s.isel, insvc := false,
                                   t := s.t - s.cfg.costRti }) ∧
    (0 ≤ s.t - s.cfg.rtiExtra → s.insvc = true → s.run = .running → s.sel = 0x00#8 →
      s.isel = 0x01#8 ∨ s.isel = 0x02#8 →
      finishStep s (exec .rti s) =
        .next { s with pc := s.ipc, ac := s.iac, sel := s.isel, insvc := false, t := s.t - s.cfg.costRti,
                       run := .idle, answer := some (.sliceExit .switched s.sliceN) })) ∧
  Config.default.costRti = 16 ∧ Config.default.rtiExtra = 2

/-- IRQ_CHECK with a non-zero vector and no interrupt in service: the context is saved, PC is the vector, the primary
interpreter is forced, INSVC <- 1, and nothing else is written. With a zero vector, or while a handler is in service,
nothing changes; a vector byte that holds no value stops by name (60_exceptions.md R333, R334, R335). -/
def Obligations.InterruptCheck : Prop :=
  (∀ (s : State) (lo hi : Byte), s.memRead s.cfg.irqVectorAddr = some lo →
     s.memRead (s.cfg.irqVectorAddr + 1) = some hi → mkWord hi lo ≠ 0x0000#16 → s.insvc = false →
     runCommand .irqCheck s =
       .next { s with ipc := s.pc, iac := s.ac, isel := s.sel, pc := mkWord hi lo, sel := 0x00#8, insvc := true,
                      answer := some (.irqChecked true) }) ∧
  (∀ (s : State) (lo hi : Byte), s.memRead s.cfg.irqVectorAddr = some lo →
    s.memRead (s.cfg.irqVectorAddr + 1) = some hi → mkWord hi lo = 0x0000#16 ∨ s.insvc = true →
    runCommand .irqCheck s = .next { s with answer := some (.irqChecked false) }) ∧
  (∀ s : State, s.memRead s.cfg.irqVectorAddr = none ∨ s.memRead (s.cfg.irqVectorAddr + 1) = none →
    runCommand .irqCheck s = .fault .readUnwritten)

/-- Interrupt round trip: an interrupt taken, a slice started in the handler, and an RTI as its first instruction
leave PC, AC, SEL, LR, SP, SCRATCH, TMP, SYSFN and M as they were, and INSVC = 0 (60_exceptions.md R340). -/
def Obligations.InterruptRoundTrip : Prop :=
  ∀ (s t u : State) (b : Budget), s.run = .idle → s.insvc = false → SelectorGood s →
    runCommand .irqCheck s = .next t → t.insvc = true → runCommand (.startSlice b) t = .next u →
    u.memRead u.pc = some 0x16#8 → (u.cfg.rtiExtra : Int) ≤ u.t →
    ∃ v : State, step u = .next v ∧
      { v with t := s.t, ipc := s.ipc, iac := s.iac, isel := s.isel, run := .idle, sliceN := s.sliceN,
               answer := s.answer } = s

/-! ### The secondary set: Fetch plus Decode -/

/-- S_FD of the cheap modes: one opcode byte and, for immediate and relative, AD at the operand byte. S_FD of the zero-page
modes: AD in page 0x00, the index sum wrapping inside it (44_secondary.md R241, R242, R244 to R248). -/
def Obligations.FetchDecodeCheapMedium : Prop :=
  (∀ (i : Instr) (op : Byte) (o : Operation) (s : State), s.sel = 0x01#8 → secondaryTable i = some (op, o, .implied) →
    exec i s = .next { s with lr := s.lr + 1, scratch := { s.scratch with b2 := op }, sel := 0x02#8,
                              t := s.t - s.cfg.fdCost.cheap }) ∧
  (∀ (i : Instr) (op : Byte) (o : Operation) (m : Mode) (s : State), s.sel = 0x01#8 → m = .imm ∨ m = .rel →
    secondaryTable i = some (op, o, m) →
    exec i s = .next { s with
      lr := s.lr + 2, sel := 0x02#8, t := s.t - s.cfg.fdCost.cheap,
      scratch := { s.scratch with b0 := loByte (s.lr + 1), b1 := hiByte (s.lr + 1), b2 := op } }) ∧
  Config.default.fdCost.cheap = 8 ∧
  (∀ (i : Instr) (op b : Byte) (o : Operation) (s : State), s.sel = 0x01#8 →
    secondaryTable i = some (op, o, .zp b) →
    exec i s = .next { s with
      lr := s.lr + 2, sel := 0x02#8, t := s.t - s.cfg.fdCost.medium,
      scratch := { s.scratch with b0 := b, b1 := 0x00#8, b2 := op } }) ∧
  (∀ (i : Instr) (op b : Byte) (o : Operation) (s : State), s.sel = 0x01#8 →
    secondaryTable i = some (op, o, .zpX b) →
    exec i s = .next { s with
      lr := s.lr + 2, sel := 0x02#8, t := s.t - s.cfg.fdCost.medium,
      scratch := { s.scratch with b0 := b + s.x, b1 := 0x00#8, b2 := op } }) ∧
  Config.default.fdCost.medium = 11

/-- S_FD of the absolute modes, admitted: the operand word, plus X or Y with the carry into the high byte. S_FD of the two
indirect modes, admitted: the pointer is read from the zero page, wrapping inside it, after IR is written; a pointer
byte without a value stops by name (44_secondary.md R241, R242, R249 to R253; 20_memory.md R65, R77). -/
def Obligations.FetchDecodeExpensive : Prop :=
  (∀ (i : Instr) (op : Byte) (o : Operation) (m : Mode) (w ad : Word) (s : State), s.sel = 0x01#8 →
    0 ≤ s.t - s.cfg.expExtraS → secondaryTable i = some (op, o, m) →
    (m = .abs w ∧ ad = w) ∨ (m = .absX w ∧ ad = w + mkWord 0x00#8 s.x) ∨
      (m = .absY w ∧ ad = w + mkWord 0x00#8 s.y) →
    exec i s = .next { s with
      lr := s.lr + 3, sel := 0x02#8, t := s.t - s.cfg.fdCost.expensive,
      scratch := { s.scratch with b0 := loByte ad, b1 := hiByte ad, b2 := op } }) ∧
  Config.default.fdCost.expensive = 21 ∧ Config.default.expExtraS = 6 ∧
  (∀ (i : Instr) (op b q : Byte) (o : Operation) (m : Mode) (s : State), s.sel = 0x01#8 →
     0 ≤ s.t - s.cfg.expExtraS → secondaryTable i = some (op, o, m) →
     (m = .indX b ∧ q = b + s.x) ∨ (m = .indY b ∧ q = b) →
     (∀ (lo hi : Byte) (ad : Word), (s.setIr op).memRead (mkWord 0x00#8 q) = some lo →
       (s.setIr op).memRead (mkWord 0x00#8 (q + 1)) = some hi →
       ad = (if m = .indX b then mkWord hi lo else mkWord hi lo + mkWord 0x00#8 s.y) →
       exec i s = .next { s with
         lr := s.lr + 2, sel := 0x02#8, t := s.t - s.cfg.fdCost.expensive,
         scratch := { s.scratch with b0 := loByte ad, b1 := hiByte ad, b2 := op } }) ∧
     ((s.setIr op).memRead (mkWord 0x00#8 q) = none ∨ (s.setIr op).memRead (mkWord 0x00#8 (q + 1)) = none →
       exec i s = .fault .readUnwritten))

/-- An expensive decode that is not admitted leaves every register, memory and T as they are, reads no operand byte, and
ends the slice DEFERRED_DECODE; retried with T = n it does what it would have done with T = n at first
(44_secondary.md R243, R293). -/
def Obligations.DecodeDeferral : Prop :=
  (∀ (i : Instr) (op : Byte) (o : Operation) (m : Mode) (s : State), s.sel = 0x01#8 →
    s.t - s.cfg.expExtraS < 0 → secondaryTable i = some (op, o, m) → m.cls = .expensive →
    exec i s = .next { s with run := .idle, answer := some (.sliceExit (.deferred .decode) s.sliceN) }) ∧
  (∀ (i : Instr) (op : Byte) (o : Operation) (m : Mode) (s : State), s.run = .running → s.sel = 0x01#8 →
    s.t - s.cfg.expExtraS < 0 → secondaryTable i = some (op, o, m) → m.cls = .expensive → s.memRead s.lr = some op →
    step s = .next { s with run := .idle, answer := some (.sliceExit (.deferred .decode) s.sliceN) }) ∧
  (∀ (b : Byte) (w : Word), (Mode.abs w).cls = .expensive ∧ (Mode.absX w).cls = .expensive ∧
    (Mode.absY w).cls = .expensive ∧ (Mode.indX b).cls = .expensive ∧ (Mode.indY b).cls = .expensive ∧
    Mode.implied.cls = .cheap ∧ Mode.imm.cls = .cheap ∧ Mode.rel.cls = .cheap ∧ (Mode.zp b).cls = .medium ∧
    (Mode.zpX b).cls = .medium) ∧
  (∀ (i : Instr) (s u : State) (n : Int), i.isa = .secondary → s.sel = 0x01#8 →
     exec i s = .next u → u.run = .idle → s.run = .running →
     exec i { u with t := n, run := .running, answer := s.answer } = exec i { s with t := n } ∧
     { u with run := s.run, answer := s.answer } = s)

/-! ### The secondary set: Execute -/

/-- LDA, LDX and LDY at Execute: the register and both derived flag bytes take m = MemRead(AD, 1), AC[15:8] is kept;
an m without a value stops by name (44_secondary.md R254 to R258). -/
def Obligations.SecondaryLoads : Prop :=
  (∀ (i : Instr) (op m : Byte) (md : Mode) (s : State), s.sel = 0x02#8 → s.memRead s.ad = some m →
    (secondaryTable i = some (op, .lda, md) → exec i s = .next { s with
      ac := mkWord (hiByte s.ac) m, sel := 0x01#8, t := s.t - s.cfg.exCost.lda,
      scratch := { s.scratch with b4 := m, b5 := m } }) ∧
    (secondaryTable i = some (op, .ldx, md) → exec i s = .next { s with
      sel := 0x01#8, t := s.t - s.cfg.exCost.ldx, scratch := { s.scratch with b4 := m, b5 := m, b6 := m } }) ∧
    (secondaryTable i = some (op, .ldy, md) → exec i s = .next { s with
      sel := 0x01#8, t := s.t - s.cfg.exCost.ldy, scratch := { s.scratch with b4 := m, b5 := m, b7 := m } })) ∧
  (∀ (i : Instr) (op : Byte) (o : Operation) (md : Mode) (s : State), s.sel = 0x02#8 → s.memRead s.ad = none →
    secondaryTable i = some (op, o, md) → o = .lda ∨ o = .ldx ∨ o = .ldy → exec i s = .fault .readUnwritten) ∧
  Config.default.exCost.lda = 7 ∧ Config.default.exCost.ldx = 7 ∧ Config.default.exCost.ldy = 7

/-- STA, STX and STY at Execute: the byte at AD takes A, X or Y; every other byte of memory is as before; no flag and no
register but SEL and T changes (44_secondary.md R254, R259 to R261). -/
def Obligations.SecondaryStores : Prop :=
  (∀ (i : Instr) (op v : Byte) (o : Operation) (md : Mode) (c : Nat) (s : State), s.sel = 0x02#8 →
    secondaryTable i = some (op, o, md) →
    (o = .sta ∧ v = loByte s.ac ∧ c = s.cfg.exCost.sta) ∨ (o = .stx ∧ v = s.x ∧ c = s.cfg.exCost.stx) ∨
      (o = .sty ∧ v = s.y ∧ c = s.cfg.exCost.sty) →
    ∃ t : State, exec i s = .next t ∧ t = { s.memWrite s.ad v with sel := 0x01#8, t := s.t - c } ∧
      t.memRead s.ad = some v ∧ (∀ b : Word, b ≠ s.ad → t.memRead b = s.memRead b) ∧
      { t with mem := s.mem, sysfn := s.sysfn, scratch := s.scratch } = { s with sel := 0x01#8, t := s.t - c }) ∧
  Config.default.exCost.sta = 7 ∧ Config.default.exCost.stx = 7 ∧ Config.default.exCost.sty = 7

/-- ADC and SBC at Execute: A <- A + m + C, respectively A + NOT(m) + C, binary; C is the carry out, V the signed
overflow, and P keeps its other bits; QZ and QN take the sum (44_secondary.md R254, R262, R263, R295). -/
def Obligations.AddSubWithCarry : Prop :=
  (∀ (i : Instr) (op m n r p : Byte) (o : Operation) (md : Mode) (k : Nat) (s : State), s.sel = 0x02#8 →
    s.memRead s.ad = some m → secondaryTable i = some (op, o, md) →
    (o = .adc ∧ n = m ∧ k = s.cfg.exCost.adc) ∨ (o = .sbc ∧ n = ~~~m ∧ k = s.cfg.exCost.sbc) →
    r = loByte s.ac + n + (if s.p.getLsbD 0 then 1 else 0) →
    p = (s.p &&& 0xBE#8) |||
        (if 255 < (loByte s.ac).toNat + n.toNat + (if s.p.getLsbD 0 then 1 else 0) then 0x01#8 else 0x00#8) |||
        (if (loByte s.ac).toInt + n.toInt + (if s.p.getLsbD 0 then 1 else 0) < -128 ∨
            127 < (loByte s.ac).toInt + n.toInt + (if s.p.getLsbD 0 then 1 else 0) then 0x40#8 else 0x00#8) →
    exec i s = .next { s with
      ac := mkWord (hiByte s.ac) r, sel := 0x01#8, t := s.t - k,
      scratch := { s.scratch with b3 := p, b4 := r, b5 := r } }) ∧
  (∀ (i : Instr) (op : Byte) (o : Operation) (md : Mode) (s : State), s.sel = 0x02#8 → s.memRead s.ad = none →
    secondaryTable i = some (op, o, md) → o = .adc ∨ o = .sbc → exec i s = .fault .readUnwritten) ∧
  Config.default.exCost.adc = 13 ∧ Config.default.exCost.sbc = 14

/-- V as 44_secondary.md R262 writes it, `(NOT(A XOR m) AND (A XOR r))[7]`, is the signed overflow of A + m + C, and
the borrow form of SBC: r = A - m - (1 - C), with C = 1 exactly when no borrow occurred (R262, R263). -/
def Obligations.OverflowAndBorrow : Prop :=
  (∀ (a m r : Byte) (c : Bool), r = a + m + bitByte c →
    (overflow8 a m r = true ↔ a.toInt + m.toInt + c.toNat < -128 ∨ 127 < a.toInt + m.toInt + c.toNat)) ∧
  (∀ (a m r : Byte) (c : Bool), r = a + ~~~m + bitByte c →
    r = a - m - bitByte (!c) ∧ carry8 a (~~~m) r = decide (m.toNat + (!c).toNat ≤ a.toNat))

/-- CMP at Execute: QZ and QN take A - m, C is A >= m unsigned, A and V are unchanged (44_secondary.md R254, R264). -/
def Obligations.Compare : Prop :=
  (∀ (i : Instr) (op m : Byte) (md : Mode) (s : State), s.sel = 0x02#8 → s.memRead s.ad = some m →
    secondaryTable i = some (op, .cmp, md) → exec i s = .next { s with
      sel := 0x01#8, t := s.t - s.cfg.exCost.cmp,
      scratch := { s.scratch with
        b3 := (s.p &&& 0xFE#8) ||| (if m.toNat ≤ (loByte s.ac).toNat then 0x01#8 else 0x00#8),
        b4 := loByte s.ac - m, b5 := loByte s.ac - m } }) ∧
  (∀ (i : Instr) (op : Byte) (md : Mode) (s : State), s.sel = 0x02#8 → s.memRead s.ad = none →
    secondaryTable i = some (op, .cmp, md) → exec i s = .fault .readUnwritten) ∧
  (∀ a m : Byte, carry8 a (~~~m) (a - m) = decide (m.toNat ≤ a.toNat)) ∧
  Config.default.exCost.cmp = 12

/-- INX, INY, DEX, DEY, TAX and TAY at Execute: X or Y and both derived flag bytes take the value; C and V are unchanged. TXA
and TYA: A and both derived flag bytes take X or Y, AC[15:8] is kept. CLC and SEC: bit 0 of P and nothing else
(44_secondary.md R254, R265 to R274). That these complete in every state, CLC too where R273 requires that P hold a
value, is the model's choice: every register holds a value (log entry 1). -/
def Obligations.RegisterOperations : Prop :=
  (∀ s : State, s.sel = 0x02#8 →
    (∀ (i : Instr) (v : Byte) (c : Nat), (i = .inx ∧ v = s.x + 1 ∧ c = s.cfg.exCost.inx) ∨
      (i = .dex ∧ v = s.x - 1 ∧ c = s.cfg.exCost.dex) ∨ (i = .tax ∧ v = loByte s.ac ∧ c = s.cfg.exCost.tax) →
      exec i s = .next { s with
        sel := 0x01#8, t := s.t - c,
        scratch := { s.scratch with b4 := v, b5 := v, b6 := v } }) ∧
    (∀ (i : Instr) (v : Byte) (c : Nat), (i = .iny ∧ v = s.y + 1 ∧ c = s.cfg.exCost.iny) ∨
      (i = .dey ∧ v = s.y - 1 ∧ c = s.cfg.exCost.dey) ∨ (i = .tay ∧ v = loByte s.ac ∧ c = s.cfg.exCost.tay) →
      exec i s = .next { s with
        sel := 0x01#8, t := s.t - c,
        scratch := { s.scratch with b4 := v, b5 := v, b7 := v } })) ∧
  Config.default.exCost.inx = 6 ∧ Config.default.exCost.iny = 6 ∧ Config.default.exCost.dex = 6 ∧
  Config.default.exCost.dey = 6 ∧ Config.default.exCost.tax = 6 ∧ Config.default.exCost.tay = 6 ∧
  (∀ s : State, s.sel = 0x02#8 →
    exec .txa s = .next { s with
      ac := mkWord (hiByte s.ac) s.x, sel := 0x01#8, t := s.t - s.cfg.exCost.txa,
      scratch := { s.scratch with b4 := s.x, b5 := s.x } } ∧
    exec .tya s = .next { s with
      ac := mkWord (hiByte s.ac) s.y, sel := 0x01#8, t := s.t - s.cfg.exCost.tya,
      scratch := { s.scratch with b4 := s.y, b5 := s.y } } ∧
    exec .clc s = .next { s with
      sel := 0x01#8, t := s.t - s.cfg.exCost.clc,
      scratch := { s.scratch with b3 := s.p &&& 0xFE#8 } } ∧
    exec .sec s = .next { s with
      sel := 0x01#8, t := s.t - s.cfg.exCost.sec,
      scratch := { s.scratch with b3 := s.p ||| 0x01#8 } }) ∧
  Config.default.exCost.txa = 6 ∧ Config.default.exCost.tya = 6 ∧ Config.default.exCost.clc = 5 ∧
  Config.default.exCost.sec = 5

/-- PHA and PLA at Execute: one byte on the primary interpreter's stack; PLA sets both derived flag bytes and keeps
AC[15:8]; a byte without a value stops by name (44_secondary.md R254, R275, R276; 20_memory.md R67). -/
def Obligations.SecondaryStack : Prop :=
  (∀ s : State, s.sel = 0x02#8 → ∃ t : State, exec .pha s = .next t ∧
    t = { s.memWrite (mkWord 0x00#8 (s.sp - 1)) (loByte s.ac) with
            sp := s.sp - 1, sel := 0x01#8, t := s.t - s.cfg.exCost.pha } ∧
    t.memRead (mkWord 0x00#8 (s.sp - 1)) = some (loByte s.ac) ∧
    (∀ b : Word, b ≠ mkWord 0x00#8 (s.sp - 1) → t.memRead b = s.memRead b) ∧
    { t with mem := s.mem, sysfn := s.sysfn, scratch := s.scratch } =
      { s with sp := s.sp - 1, sel := 0x01#8, t := s.t - s.cfg.exCost.pha }) ∧
  (∀ s : State, s.sel = 0x02#8 →
    (∀ v : Byte, s.memRead (mkWord 0x00#8 s.sp) = some v → exec .pla s = .next { s with
      ac := mkWord (hiByte s.ac) v, sp := s.sp + 1, sel := 0x01#8, t := s.t - s.cfg.exCost.pla,
      scratch := { s.scratch with b4 := v, b5 := v } }) ∧
    (s.memRead (mkWord 0x00#8 s.sp) = none → exec .pla s = .fault .readUnwritten)) ∧
  Config.default.exCost.pha = 8 ∧ Config.default.exCost.pla = 9

/-- PHP and PLP at Execute: the canonical flags byte NV11DIZC is pushed, the flags unchanged; a pulled byte is unpacked
into P, QZ and QN; a byte without a value stops by name (44_secondary.md R254, R255, R277, R278; 10_state.md R29). -/
def Obligations.FlagsStack : Prop :=
  (∀ (s : State) (v : Byte), s.sel = 0x02#8 →
    v = (s.qn &&& 0x80#8) ||| (s.p &&& 0x40#8) ||| 0x30#8 ||| (s.p &&& 0x0C#8) |||
        (if s.qz = 0x00#8 then 0x02#8 else 0x00#8) ||| (s.p &&& 0x01#8) →
    ∃ t : State, exec .php s = .next t ∧
      t = { s.memWrite (mkWord 0x00#8 (s.sp - 1)) v with
              sp := s.sp - 1, sel := 0x01#8, t := s.t - s.cfg.exCost.php } ∧
      t.memRead (mkWord 0x00#8 (s.sp - 1)) = some v ∧
      (∀ b : Word, b ≠ mkWord 0x00#8 (s.sp - 1) → t.memRead b = s.memRead b) ∧
      { t with mem := s.mem, sysfn := s.sysfn, scratch := s.scratch } =
        { s with sp := s.sp - 1, sel := 0x01#8, t := s.t - s.cfg.exCost.php }) ∧
  (∀ s : State, s.sel = 0x02#8 →
    (∀ v : Byte, s.memRead (mkWord 0x00#8 s.sp) = some v → exec .plp s = .next { s with
      sp := s.sp + 1, sel := 0x01#8, t := s.t - s.cfg.exCost.plp,
      scratch := { s.scratch with b3 := v, b4 := if v.getLsbD 1 then 0x00#8 else 0x01#8, b5 := v &&& 0x80#8 } }) ∧
    (s.memRead (mkWord 0x00#8 s.sp) = none → exec .plp s = .fault .readUnwritten)) ∧
  Config.default.exCost.php = 15 ∧ Config.default.exCost.plp = 15

/-- PHP followed by PLP restores N, V, D, I, Z, C and SP exactly, whatever the flags were overwritten with in between
(44_secondary.md R278, R255). -/
def Obligations.FlagsRoundTrip : Prop :=
  ∀ (s t u : State) (p qz qn : Byte), s.sel = 0x02#8 → State.inScratchWindow s.cfg (mkWord 0x00#8 (s.sp - 1)) = false →
    exec .php s = .next t →
    exec .plp { t with sel := 0x02#8, scratch := { t.scratch with b3 := p, b4 := qz, b5 := qn } } = .next u →
    u.flagN = s.flagN ∧ u.flagV = s.flagV ∧ u.p.getLsbD 3 = s.p.getLsbD 3 ∧ u.p.getLsbD 2 = s.p.getLsbD 2 ∧
    u.flagZ = s.flagZ ∧ u.flagC = s.flagC ∧ u.sp = s.sp

/-- The eight relative branches at Execute: the displacement byte at AD, signed, is added to LR where the condition on
the live flags holds; nothing else but SEL and T changes (44_secondary.md R254, R279 to R287; 10_state.md R29). -/
def Obligations.SecondaryBranches : Prop :=
  (∀ (i : Instr) (op o : Byte) (b : Operation) (md : Mode) (taken : Prop) (c : Nat) (s : State), s.sel = 0x02#8 →
    s.memRead s.ad = some o → secondaryTable i = some (op, b, md) →
    (b = .bpl ∧ (taken ↔ s.qn.getLsbD 7 = false) ∧ c = s.cfg.exCost.bpl) ∨
      (b = .bmi ∧ (taken ↔ s.qn.getLsbD 7 = true) ∧ c = s.cfg.exCost.bmi) ∨
      (b = .bvc ∧ (taken ↔ s.p.getLsbD 6 = false) ∧ c = s.cfg.exCost.bvc) ∨
      (b = .bvs ∧ (taken ↔ s.p.getLsbD 6 = true) ∧ c = s.cfg.exCost.bvs) ∨
      (b = .bcc ∧ (taken ↔ s.p.getLsbD 0 = false) ∧ c = s.cfg.exCost.bcc) ∨
      (b = .bcs ∧ (taken ↔ s.p.getLsbD 0 = true) ∧ c = s.cfg.exCost.bcs) ∨
      (b = .bne ∧ (taken ↔ s.qz ≠ 0x00#8) ∧ c = s.cfg.exCost.bne) ∨
      (b = .beq ∧ (taken ↔ s.qz = 0x00#8) ∧ c = s.cfg.exCost.beq) →
    (taken → exec i s =
      .next { s with lr := s.lr + BitVec.ofInt 16 o.toInt, sel := 0x01#8, t := s.t - c }) ∧
    (¬taken → exec i s = .next { s with sel := 0x01#8, t := s.t - c })) ∧
  (∀ (i : Instr) (op : Byte) (b : Operation) (s : State), s.sel = 0x02#8 → s.memRead s.ad = none →
    secondaryTable i = some (op, b, .rel) → exec i s = .fault .readUnwritten) ∧
  (∀ c ∈ [Config.default.exCost.bpl, Config.default.exCost.bmi, Config.default.exCost.bvc, Config.default.exCost.bvs,
    Config.default.exCost.bcc, Config.default.exCost.bcs, Config.default.exCost.bne, Config.default.exCost.beq], c = 8)

/-- JMP, NOP, BRK and the escape at Execute: LR <- AD; nothing; SEL <- 0x00 and nothing else, for BRK and for every
unimplemented opcode alike, and the slice ends SWITCHED (44_secondary.md R254, R288 to R291). -/
def Obligations.JumpNopBreak : Prop :=
  (∀ (a : Word) (s : State), s.sel = 0x02#8 →
    exec (.jmpAbs a) s = .next { s with lr := s.ad, sel := 0x01#8, t := s.t - s.cfg.exCost.jmp } ∧
    exec .nop s = .next { s with sel := 0x01#8, t := s.t - s.cfg.exCost.nop } ∧
    exec .brk s = .next { s with sel := 0x00#8, t := s.t - s.cfg.exCost.brk } ∧
    (∀ op : Byte, exec (.esc op) s = .next { s with sel := 0x00#8, t := s.t - s.cfg.exCost.brk }) ∧
    (s.run = .running → ∀ i : Instr, i = .brk ∨ (∃ op : Byte, i = .esc op) → finishStep s (exec i s) = .next { s with
      sel := 0x00#8, t := s.t - s.cfg.exCost.brk, run := .idle, answer := some (.sliceExit .switched s.sliceN) })) ∧
  Config.default.exCost.jmp = 6 ∧ Config.default.exCost.nop = 4 ∧ Config.default.exCost.brk = 10

/-- Execute dispatches by IR and works on the latched AD: the operand field of the instruction that IR names is not
used, so a slice that starts with SEL = 0x02 resumes at Execute without fetching (44_secondary.md R254, R292). -/
def Obligations.FastPathEntry : Prop :=
  (∀ (i j : Instr) (op : Byte) (o : Operation) (m n : Mode) (s : State), s.sel = 0x02#8 →
    secondaryTable i = some (op, o, m) → secondaryTable j = some (op, o, n) → exec i s = exec j s) ∧
  (∀ (i : Instr) (op : Byte) (o : Operation) (m : Mode) (s : State), i.wellFormed = true → s.run = .running →
    s.sel = 0x02#8 → secondaryTable i = some (op, o, m) → s.ir = op → step s = finishStep s (exec i s))

/-! ### Whole-machine properties -/

/-- Every step keeps memory in its canonical form with no window address listed (20_memory.md R61, R63; the form is
the model's, log entry 2). -/
def Obligations.StepKeepsMemoryGood : Prop :=
  ∀ s t : State, MemoryGood s → step s = .next t → MemoryGood t

/-- Every step keeps SEL and the saved selector at legal values (10_state.md R30). -/
def Obligations.StepKeepsSelectorGood : Prop :=
  ∀ s t : State, SelectorGood s → step s = .next t → SelectorGood t

/-- With costs that obey the constraints of 00_scope.md R7, every step keeps T inside its signed range and, while a
slice is running, 0 <= T; a running step charges at least one tick unless it defers, and leaves T >= -MAXT of the
interpreter that ran it (40_scheduler_dispatch.md R133). -/
def Obligations.StepKeepsTicksGood : Prop :=
  (∀ s t : State, s.cfg.TicksWf → TicksGood s → step s = .next t → TicksGood t ∧ t.cfg.TicksWf) ∧
  (∀ (s t : State) (i : Interp), s.cfg.TicksWf → TicksGood s → s.run = .running → interp s.sel = some i →
    step s = .next t → -(reserve s.cfg i : Int) ≤ t.t ∧
      (t.t < s.t ∨ ∃ r : DeferReason, t = s.defer r))

/-- The three invariants hold right after reset; the defaults satisfy the constraints of 00_scope.md R7 and fill the SYS
call table as 43_sys.md R218 does. -/
def Obligations.ResetIsGood : Prop :=
  (MemoryGood State.reset ∧ SelectorGood State.reset ∧ TicksGood State.reset ∧ State.reset.cfg.TicksWf) ∧
  (Config.default.TicksWf ∧ Config.default.AddressesWf ∧ ReferenceSlots Config.default ∧
   Config.default.tmax = 127 ∧ Config.default.nslots = 16 ∧
   (slotOf Config.default 0xE000#16).map Slot.routine = some .placeholder ∧
   (slotOf Config.default 0xE010#16).map Slot.routine = some .runSecondary ∧
   (slotOf Config.default 0xE020#16).map Slot.routine = some .multiply16 ∧
   (slotOf Config.default 0xE030#16).map Slot.routine = some .copyBytes ∧
   slotOf Config.default 0xE001#16 = none)

/-- No step of a running slice writes the configuration, the interrupt save area, N or the host's queue, and none sets
INSVC: the save area is written by IRQ_CHECK alone, INSVC set by it alone (10_state.md R33, R34, R39; 60_exceptions.md
R335, R342). No rule reads or writes TMP: with the reference routines in the SYS slots every step leaves it (R25). -/
def Obligations.StepProtects : Prop :=
  (∀ s t : State, s.run = .running → step s = .next t →
     SameProtected s t ∧ (t.insvc = s.insvc ∨ (t.insvc = false ∧ s.sel = 0x00#8 ∧ t.pc = s.ipc ∧ t.ac = s.iac))) ∧
  (∀ s t : State, ReferenceSlots s.cfg → step s = .next t → t.tmp = s.tmp)

/-- A secondary step leaves PC, AC[15:8], TMP and the interrupt state alone (44_secondary.md R240, R294; 10_state.md
R21, R22). -/
def Obligations.SecondaryStepPreserves : Prop :=
  ∀ s t : State, s.run = .running → s.sel ≠ 0x00#8 → step s = .next t →
    t.pc = s.pc ∧ hiByte t.ac = hiByte s.ac ∧ t.tmp = s.tmp ∧ t.insvc = s.insvc ∧ SameProtected s t

/-- An instruction that is none of ST, STW, PUSH, SYS, STA, STX, STY, PHA and PHP leaves every byte of memory as it
reads: all of it for the primary set, all outside the bytes of the secondary registers for the secondary set
(41_primary.md, 42_extended.md and 44_secondary.md, the "Changes" of each rule; 20_memory.md R66). -/
def Obligations.NonStoringKeepsMemory : Prop :=
  ∀ (i : Instr) (s t : State), storing i = false → exec i s = .next t →
    (i.isa = .primary → SameReads s t) ∧ SameReadsOutsideScratch s t ∧ t.mem = s.mem ∧ t.sysfn = s.sysfn
end

