-- ==== Sys2Proof/Laws/State.lean ====
section
/-! SUPPORT. One lemma per field per update, each true by `rfl`: the register updates, the updates of the secondary
registers inside SCRATCH, the accounting and the slice exit; and what MemWrite leaves alone. -/

namespace Sys2Proof.Machine.State

/-! ### Register updates -/

@[simp] theorem setPc_cfg (s : State) (v : Word) : (s.setPc v).cfg = s.cfg := rfl
@[simp] theorem setPc_pc (s : State) (v : Word) : (s.setPc v).pc = v := rfl
@[simp] theorem setPc_ac (s : State) (v : Word) : (s.setPc v).ac = s.ac := rfl
@[simp] theorem setPc_lr (s : State) (v : Word) : (s.setPc v).lr = s.lr := rfl
@[simp] theorem setPc_sp (s : State) (v : Word) : (s.setPc v).sp = s.sp := rfl
@[simp] theorem setPc_tmp (s : State) (v : Word) : (s.setPc v).tmp = s.tmp := rfl
@[simp] theorem setPc_scratch (s : State) (v : Word) : (s.setPc v).scratch = s.scratch := rfl
@[simp] theorem setPc_sysfn (s : State) (v : Word) : (s.setPc v).sysfn = s.sysfn := rfl
@[simp] theorem setPc_sel (s : State) (v : Word) : (s.setPc v).sel = s.sel := rfl
@[simp] theorem setPc_t (s : State) (v : Word) : (s.setPc v).t = s.t := rfl
@[simp] theorem setPc_ipc (s : State) (v : Word) : (s.setPc v).ipc = s.ipc := rfl
@[simp] theorem setPc_iac (s : State) (v : Word) : (s.setPc v).iac = s.iac := rfl
@[simp] theorem setPc_isel (s : State) (v : Word) : (s.setPc v).isel = s.isel := rfl
@[simp] theorem setPc_insvc (s : State) (v : Word) : (s.setPc v).insvc = s.insvc := rfl
@[simp] theorem setPc_run (s : State) (v : Word) : (s.setPc v).run = s.run := rfl
@[simp] theorem setPc_mem (s : State) (v : Word) : (s.setPc v).mem = s.mem := rfl
@[simp] theorem setPc_sliceN (s : State) (v : Word) : (s.setPc v).sliceN = s.sliceN := rfl
@[simp] theorem setPc_pending (s : State) (v : Word) : (s.setPc v).pending = s.pending := rfl
@[simp] theorem setPc_answer (s : State) (v : Word) : (s.setPc v).answer = s.answer := rfl
@[simp] theorem setAc_cfg (s : State) (v : Word) : (s.setAc v).cfg = s.cfg := rfl
@[simp] theorem setAc_pc (s : State) (v : Word) : (s.setAc v).pc = s.pc := rfl
@[simp] theorem setAc_ac (s : State) (v : Word) : (s.setAc v).ac = v := rfl
@[simp] theorem setAc_lr (s : State) (v : Word) : (s.setAc v).lr = s.lr := rfl
@[simp] theorem setAc_sp (s : State) (v : Word) : (s.setAc v).sp = s.sp := rfl
@[simp] theorem setAc_tmp (s : State) (v : Word) : (s.setAc v).tmp = s.tmp := rfl
@[simp] theorem setAc_scratch (s : State) (v : Word) : (s.setAc v).scratch = s.scratch := rfl
@[simp] theorem setAc_sysfn (s : State) (v : Word) : (s.setAc v).sysfn = s.sysfn := rfl
@[simp] theorem setAc_sel (s : State) (v : Word) : (s.setAc v).sel = s.sel := rfl
@[simp] theorem setAc_t (s : State) (v : Word) : (s.setAc v).t = s.t := rfl
@[simp] theorem setAc_ipc (s : State) (v : Word) : (s.setAc v).ipc = s.ipc := rfl
@[simp] theorem setAc_iac (s : State) (v : Word) : (s.setAc v).iac = s.iac := rfl
@[simp] theorem setAc_isel (s : State) (v : Word) : (s.setAc v).isel = s.isel := rfl
@[simp] theorem setAc_insvc (s : State) (v : Word) : (s.setAc v).insvc = s.insvc := rfl
@[simp] theorem setAc_run (s : State) (v : Word) : (s.setAc v).run = s.run := rfl
@[simp] theorem setAc_mem (s : State) (v : Word) : (s.setAc v).mem = s.mem := rfl
@[simp] theorem setAc_sliceN (s : State) (v : Word) : (s.setAc v).sliceN = s.sliceN := rfl
@[simp] theorem setAc_pending (s : State) (v : Word) : (s.setAc v).pending = s.pending := rfl
@[simp] theorem setAc_answer (s : State) (v : Word) : (s.setAc v).answer = s.answer := rfl
@[simp] theorem setLr_cfg (s : State) (v : Word) : (s.setLr v).cfg = s.cfg := rfl
@[simp] theorem setLr_pc (s : State) (v : Word) : (s.setLr v).pc = s.pc := rfl
@[simp] theorem setLr_ac (s : State) (v : Word) : (s.setLr v).ac = s.ac := rfl
@[simp] theorem setLr_lr (s : State) (v : Word) : (s.setLr v).lr = v := rfl
@[simp] theorem setLr_sp (s : State) (v : Word) : (s.setLr v).sp = s.sp := rfl
@[simp] theorem setLr_tmp (s : State) (v : Word) : (s.setLr v).tmp = s.tmp := rfl
@[simp] theorem setLr_scratch (s : State) (v : Word) : (s.setLr v).scratch = s.scratch := rfl
@[simp] theorem setLr_sysfn (s : State) (v : Word) : (s.setLr v).sysfn = s.sysfn := rfl
@[simp] theorem setLr_sel (s : State) (v : Word) : (s.setLr v).sel = s.sel := rfl
@[simp] theorem setLr_t (s : State) (v : Word) : (s.setLr v).t = s.t := rfl
@[simp] theorem setLr_ipc (s : State) (v : Word) : (s.setLr v).ipc = s.ipc := rfl
@[simp] theorem setLr_iac (s : State) (v : Word) : (s.setLr v).iac = s.iac := rfl
@[simp] theorem setLr_isel (s : State) (v : Word) : (s.setLr v).isel = s.isel := rfl
@[simp] theorem setLr_insvc (s : State) (v : Word) : (s.setLr v).insvc = s.insvc := rfl
@[simp] theorem setLr_run (s : State) (v : Word) : (s.setLr v).run = s.run := rfl
@[simp] theorem setLr_mem (s : State) (v : Word) : (s.setLr v).mem = s.mem := rfl
@[simp] theorem setLr_sliceN (s : State) (v : Word) : (s.setLr v).sliceN = s.sliceN := rfl
@[simp] theorem setLr_pending (s : State) (v : Word) : (s.setLr v).pending = s.pending := rfl
@[simp] theorem setLr_answer (s : State) (v : Word) : (s.setLr v).answer = s.answer := rfl
@[simp] theorem setSp_cfg (s : State) (v : Byte) : (s.setSp v).cfg = s.cfg := rfl
@[simp] theorem setSp_pc (s : State) (v : Byte) : (s.setSp v).pc = s.pc := rfl
@[simp] theorem setSp_ac (s : State) (v : Byte) : (s.setSp v).ac = s.ac := rfl
@[simp] theorem setSp_lr (s : State) (v : Byte) : (s.setSp v).lr = s.lr := rfl
@[simp] theorem setSp_sp (s : State) (v : Byte) : (s.setSp v).sp = v := rfl
@[simp] theorem setSp_tmp (s : State) (v : Byte) : (s.setSp v).tmp = s.tmp := rfl
@[simp] theorem setSp_scratch (s : State) (v : Byte) : (s.setSp v).scratch = s.scratch := rfl
@[simp] theorem setSp_sysfn (s : State) (v : Byte) : (s.setSp v).sysfn = s.sysfn := rfl
@[simp] theorem setSp_sel (s : State) (v : Byte) : (s.setSp v).sel = s.sel := rfl
@[simp] theorem setSp_t (s : State) (v : Byte) : (s.setSp v).t = s.t := rfl
@[simp] theorem setSp_ipc (s : State) (v : Byte) : (s.setSp v).ipc = s.ipc := rfl
@[simp] theorem setSp_iac (s : State) (v : Byte) : (s.setSp v).iac = s.iac := rfl
@[simp] theorem setSp_isel (s : State) (v : Byte) : (s.setSp v).isel = s.isel := rfl
@[simp] theorem setSp_insvc (s : State) (v : Byte) : (s.setSp v).insvc = s.insvc := rfl
@[simp] theorem setSp_run (s : State) (v : Byte) : (s.setSp v).run = s.run := rfl
@[simp] theorem setSp_mem (s : State) (v : Byte) : (s.setSp v).mem = s.mem := rfl
@[simp] theorem setSp_sliceN (s : State) (v : Byte) : (s.setSp v).sliceN = s.sliceN := rfl
@[simp] theorem setSp_pending (s : State) (v : Byte) : (s.setSp v).pending = s.pending := rfl
@[simp] theorem setSp_answer (s : State) (v : Byte) : (s.setSp v).answer = s.answer := rfl
@[simp] theorem setTmp_cfg (s : State) (v : Byte) : (s.setTmp v).cfg = s.cfg := rfl
@[simp] theorem setTmp_pc (s : State) (v : Byte) : (s.setTmp v).pc = s.pc := rfl
@[simp] theorem setTmp_ac (s : State) (v : Byte) : (s.setTmp v).ac = s.ac := rfl
@[simp] theorem setTmp_lr (s : State) (v : Byte) : (s.setTmp v).lr = s.lr := rfl
@[simp] theorem setTmp_sp (s : State) (v : Byte) : (s.setTmp v).sp = s.sp := rfl
@[simp] theorem setTmp_tmp (s : State) (v : Byte) : (s.setTmp v).tmp = v := rfl
@[simp] theorem setTmp_scratch (s : State) (v : Byte) : (s.setTmp v).scratch = s.scratch := rfl
@[simp] theorem setTmp_sysfn (s : State) (v : Byte) : (s.setTmp v).sysfn = s.sysfn := rfl
@[simp] theorem setTmp_sel (s : State) (v : Byte) : (s.setTmp v).sel = s.sel := rfl
@[simp] theorem setTmp_t (s : State) (v : Byte) : (s.setTmp v).t = s.t := rfl
@[simp] theorem setTmp_ipc (s : State) (v : Byte) : (s.setTmp v).ipc = s.ipc := rfl
@[simp] theorem setTmp_iac (s : State) (v : Byte) : (s.setTmp v).iac = s.iac := rfl
@[simp] theorem setTmp_isel (s : State) (v : Byte) : (s.setTmp v).isel = s.isel := rfl
@[simp] theorem setTmp_insvc (s : State) (v : Byte) : (s.setTmp v).insvc = s.insvc := rfl
@[simp] theorem setTmp_run (s : State) (v : Byte) : (s.setTmp v).run = s.run := rfl
@[simp] theorem setTmp_mem (s : State) (v : Byte) : (s.setTmp v).mem = s.mem := rfl
@[simp] theorem setTmp_sliceN (s : State) (v : Byte) : (s.setTmp v).sliceN = s.sliceN := rfl
@[simp] theorem setTmp_pending (s : State) (v : Byte) : (s.setTmp v).pending = s.pending := rfl
@[simp] theorem setTmp_answer (s : State) (v : Byte) : (s.setTmp v).answer = s.answer := rfl
@[simp] theorem setScratch_cfg (s : State) (v : Scratch) : (s.setScratch v).cfg = s.cfg := rfl
@[simp] theorem setScratch_pc (s : State) (v : Scratch) : (s.setScratch v).pc = s.pc := rfl
@[simp] theorem setScratch_ac (s : State) (v : Scratch) : (s.setScratch v).ac = s.ac := rfl
@[simp] theorem setScratch_lr (s : State) (v : Scratch) : (s.setScratch v).lr = s.lr := rfl
@[simp] theorem setScratch_sp (s : State) (v : Scratch) : (s.setScratch v).sp = s.sp := rfl
@[simp] theorem setScratch_tmp (s : State) (v : Scratch) : (s.setScratch v).tmp = s.tmp := rfl
@[simp] theorem setScratch_scratch (s : State) (v : Scratch) : (s.setScratch v).scratch = v := rfl
@[simp] theorem setScratch_sysfn (s : State) (v : Scratch) : (s.setScratch v).sysfn = s.sysfn := rfl
@[simp] theorem setScratch_sel (s : State) (v : Scratch) : (s.setScratch v).sel = s.sel := rfl
@[simp] theorem setScratch_t (s : State) (v : Scratch) : (s.setScratch v).t = s.t := rfl
@[simp] theorem setScratch_ipc (s : State) (v : Scratch) : (s.setScratch v).ipc = s.ipc := rfl
@[simp] theorem setScratch_iac (s : State) (v : Scratch) : (s.setScratch v).iac = s.iac := rfl
@[simp] theorem setScratch_isel (s : State) (v : Scratch) : (s.setScratch v).isel = s.isel := rfl
@[simp] theorem setScratch_insvc (s : State) (v : Scratch) : (s.setScratch v).insvc = s.insvc := rfl
@[simp] theorem setScratch_run (s : State) (v : Scratch) : (s.setScratch v).run = s.run := rfl
@[simp] theorem setScratch_mem (s : State) (v : Scratch) : (s.setScratch v).mem = s.mem := rfl
@[simp] theorem setScratch_sliceN (s : State) (v : Scratch) : (s.setScratch v).sliceN = s.sliceN := rfl
@[simp] theorem setScratch_pending (s : State) (v : Scratch) : (s.setScratch v).pending = s.pending := rfl
@[simp] theorem setScratch_answer (s : State) (v : Scratch) : (s.setScratch v).answer = s.answer := rfl
@[simp] theorem setSysfn_cfg (s : State) (v : Word) : (s.setSysfn v).cfg = s.cfg := rfl
@[simp] theorem setSysfn_pc (s : State) (v : Word) : (s.setSysfn v).pc = s.pc := rfl
@[simp] theorem setSysfn_ac (s : State) (v : Word) : (s.setSysfn v).ac = s.ac := rfl
@[simp] theorem setSysfn_lr (s : State) (v : Word) : (s.setSysfn v).lr = s.lr := rfl
@[simp] theorem setSysfn_sp (s : State) (v : Word) : (s.setSysfn v).sp = s.sp := rfl
@[simp] theorem setSysfn_tmp (s : State) (v : Word) : (s.setSysfn v).tmp = s.tmp := rfl
@[simp] theorem setSysfn_scratch (s : State) (v : Word) : (s.setSysfn v).scratch = s.scratch := rfl
@[simp] theorem setSysfn_sysfn (s : State) (v : Word) : (s.setSysfn v).sysfn = v := rfl
@[simp] theorem setSysfn_sel (s : State) (v : Word) : (s.setSysfn v).sel = s.sel := rfl
@[simp] theorem setSysfn_t (s : State) (v : Word) : (s.setSysfn v).t = s.t := rfl
@[simp] theorem setSysfn_ipc (s : State) (v : Word) : (s.setSysfn v).ipc = s.ipc := rfl
@[simp] theorem setSysfn_iac (s : State) (v : Word) : (s.setSysfn v).iac = s.iac := rfl
@[simp] theorem setSysfn_isel (s : State) (v : Word) : (s.setSysfn v).isel = s.isel := rfl
@[simp] theorem setSysfn_insvc (s : State) (v : Word) : (s.setSysfn v).insvc = s.insvc := rfl
@[simp] theorem setSysfn_run (s : State) (v : Word) : (s.setSysfn v).run = s.run := rfl
@[simp] theorem setSysfn_mem (s : State) (v : Word) : (s.setSysfn v).mem = s.mem := rfl
@[simp] theorem setSysfn_sliceN (s : State) (v : Word) : (s.setSysfn v).sliceN = s.sliceN := rfl
@[simp] theorem setSysfn_pending (s : State) (v : Word) : (s.setSysfn v).pending = s.pending := rfl
@[simp] theorem setSysfn_answer (s : State) (v : Word) : (s.setSysfn v).answer = s.answer := rfl
@[simp] theorem setSel_cfg (s : State) (v : Byte) : (s.setSel v).cfg = s.cfg := rfl
@[simp] theorem setSel_pc (s : State) (v : Byte) : (s.setSel v).pc = s.pc := rfl
@[simp] theorem setSel_ac (s : State) (v : Byte) : (s.setSel v).ac = s.ac := rfl
@[simp] theorem setSel_lr (s : State) (v : Byte) : (s.setSel v).lr = s.lr := rfl
@[simp] theorem setSel_sp (s : State) (v : Byte) : (s.setSel v).sp = s.sp := rfl
@[simp] theorem setSel_tmp (s : State) (v : Byte) : (s.setSel v).tmp = s.tmp := rfl
@[simp] theorem setSel_scratch (s : State) (v : Byte) : (s.setSel v).scratch = s.scratch := rfl
@[simp] theorem setSel_sysfn (s : State) (v : Byte) : (s.setSel v).sysfn = s.sysfn := rfl
@[simp] theorem setSel_sel (s : State) (v : Byte) : (s.setSel v).sel = v := rfl
@[simp] theorem setSel_t (s : State) (v : Byte) : (s.setSel v).t = s.t := rfl
@[simp] theorem setSel_ipc (s : State) (v : Byte) : (s.setSel v).ipc = s.ipc := rfl
@[simp] theorem setSel_iac (s : State) (v : Byte) : (s.setSel v).iac = s.iac := rfl
@[simp] theorem setSel_isel (s : State) (v : Byte) : (s.setSel v).isel = s.isel := rfl
@[simp] theorem setSel_insvc (s : State) (v : Byte) : (s.setSel v).insvc = s.insvc := rfl
@[simp] theorem setSel_run (s : State) (v : Byte) : (s.setSel v).run = s.run := rfl
@[simp] theorem setSel_mem (s : State) (v : Byte) : (s.setSel v).mem = s.mem := rfl
@[simp] theorem setSel_sliceN (s : State) (v : Byte) : (s.setSel v).sliceN = s.sliceN := rfl
@[simp] theorem setSel_pending (s : State) (v : Byte) : (s.setSel v).pending = s.pending := rfl
@[simp] theorem setSel_answer (s : State) (v : Byte) : (s.setSel v).answer = s.answer := rfl
@[simp] theorem setT_cfg (s : State) (v : Int) : (s.setT v).cfg = s.cfg := rfl
@[simp] theorem setT_pc (s : State) (v : Int) : (s.setT v).pc = s.pc := rfl
@[simp] theorem setT_ac (s : State) (v : Int) : (s.setT v).ac = s.ac := rfl
@[simp] theorem setT_lr (s : State) (v : Int) : (s.setT v).lr = s.lr := rfl
@[simp] theorem setT_sp (s : State) (v : Int) : (s.setT v).sp = s.sp := rfl
@[simp] theorem setT_tmp (s : State) (v : Int) : (s.setT v).tmp = s.tmp := rfl
@[simp] theorem setT_scratch (s : State) (v : Int) : (s.setT v).scratch = s.scratch := rfl
@[simp] theorem setT_sysfn (s : State) (v : Int) : (s.setT v).sysfn = s.sysfn := rfl
@[simp] theorem setT_sel (s : State) (v : Int) : (s.setT v).sel = s.sel := rfl
@[simp] theorem setT_t (s : State) (v : Int) : (s.setT v).t = v := rfl
@[simp] theorem setT_ipc (s : State) (v : Int) : (s.setT v).ipc = s.ipc := rfl
@[simp] theorem setT_iac (s : State) (v : Int) : (s.setT v).iac = s.iac := rfl
@[simp] theorem setT_isel (s : State) (v : Int) : (s.setT v).isel = s.isel := rfl
@[simp] theorem setT_insvc (s : State) (v : Int) : (s.setT v).insvc = s.insvc := rfl
@[simp] theorem setT_run (s : State) (v : Int) : (s.setT v).run = s.run := rfl
@[simp] theorem setT_mem (s : State) (v : Int) : (s.setT v).mem = s.mem := rfl
@[simp] theorem setT_sliceN (s : State) (v : Int) : (s.setT v).sliceN = s.sliceN := rfl
@[simp] theorem setT_pending (s : State) (v : Int) : (s.setT v).pending = s.pending := rfl
@[simp] theorem setT_answer (s : State) (v : Int) : (s.setT v).answer = s.answer := rfl
@[simp] theorem setRun_cfg (s : State) (v : Run) : (s.setRun v).cfg = s.cfg := rfl
@[simp] theorem setRun_pc (s : State) (v : Run) : (s.setRun v).pc = s.pc := rfl
@[simp] theorem setRun_ac (s : State) (v : Run) : (s.setRun v).ac = s.ac := rfl
@[simp] theorem setRun_lr (s : State) (v : Run) : (s.setRun v).lr = s.lr := rfl
@[simp] theorem setRun_sp (s : State) (v : Run) : (s.setRun v).sp = s.sp := rfl
@[simp] theorem setRun_tmp (s : State) (v : Run) : (s.setRun v).tmp = s.tmp := rfl
@[simp] theorem setRun_scratch (s : State) (v : Run) : (s.setRun v).scratch = s.scratch := rfl
@[simp] theorem setRun_sysfn (s : State) (v : Run) : (s.setRun v).sysfn = s.sysfn := rfl
@[simp] theorem setRun_sel (s : State) (v : Run) : (s.setRun v).sel = s.sel := rfl
@[simp] theorem setRun_t (s : State) (v : Run) : (s.setRun v).t = s.t := rfl
@[simp] theorem setRun_ipc (s : State) (v : Run) : (s.setRun v).ipc = s.ipc := rfl
@[simp] theorem setRun_iac (s : State) (v : Run) : (s.setRun v).iac = s.iac := rfl
@[simp] theorem setRun_isel (s : State) (v : Run) : (s.setRun v).isel = s.isel := rfl
@[simp] theorem setRun_insvc (s : State) (v : Run) : (s.setRun v).insvc = s.insvc := rfl
@[simp] theorem setRun_run (s : State) (v : Run) : (s.setRun v).run = v := rfl
@[simp] theorem setRun_mem (s : State) (v : Run) : (s.setRun v).mem = s.mem := rfl
@[simp] theorem setRun_sliceN (s : State) (v : Run) : (s.setRun v).sliceN = s.sliceN := rfl
@[simp] theorem setRun_pending (s : State) (v : Run) : (s.setRun v).pending = s.pending := rfl
@[simp] theorem setRun_answer (s : State) (v : Run) : (s.setRun v).answer = s.answer := rfl
@[simp] theorem setMem_cfg (s : State) (v : Memory) : (s.setMem v).cfg = s.cfg := rfl
@[simp] theorem setMem_pc (s : State) (v : Memory) : (s.setMem v).pc = s.pc := rfl
@[simp] theorem setMem_ac (s : State) (v : Memory) : (s.setMem v).ac = s.ac := rfl
@[simp] theorem setMem_lr (s : State) (v : Memory) : (s.setMem v).lr = s.lr := rfl
@[simp] theorem setMem_sp (s : State) (v : Memory) : (s.setMem v).sp = s.sp := rfl
@[simp] theorem setMem_tmp (s : State) (v : Memory) : (s.setMem v).tmp = s.tmp := rfl
@[simp] theorem setMem_scratch (s : State) (v : Memory) : (s.setMem v).scratch = s.scratch := rfl
@[simp] theorem setMem_sysfn (s : State) (v : Memory) : (s.setMem v).sysfn = s.sysfn := rfl
@[simp] theorem setMem_sel (s : State) (v : Memory) : (s.setMem v).sel = s.sel := rfl
@[simp] theorem setMem_t (s : State) (v : Memory) : (s.setMem v).t = s.t := rfl
@[simp] theorem setMem_ipc (s : State) (v : Memory) : (s.setMem v).ipc = s.ipc := rfl
@[simp] theorem setMem_iac (s : State) (v : Memory) : (s.setMem v).iac = s.iac := rfl
@[simp] theorem setMem_isel (s : State) (v : Memory) : (s.setMem v).isel = s.isel := rfl
@[simp] theorem setMem_insvc (s : State) (v : Memory) : (s.setMem v).insvc = s.insvc := rfl
@[simp] theorem setMem_run (s : State) (v : Memory) : (s.setMem v).run = s.run := rfl
@[simp] theorem setMem_mem (s : State) (v : Memory) : (s.setMem v).mem = v := rfl
@[simp] theorem setMem_sliceN (s : State) (v : Memory) : (s.setMem v).sliceN = s.sliceN := rfl
@[simp] theorem setMem_pending (s : State) (v : Memory) : (s.setMem v).pending = s.pending := rfl
@[simp] theorem setMem_answer (s : State) (v : Memory) : (s.setMem v).answer = s.answer := rfl
@[simp] theorem setAnswer_cfg (s : State) (v : Option Answer) : (s.setAnswer v).cfg = s.cfg := rfl
@[simp] theorem setAnswer_pc (s : State) (v : Option Answer) : (s.setAnswer v).pc = s.pc := rfl
@[simp] theorem setAnswer_ac (s : State) (v : Option Answer) : (s.setAnswer v).ac = s.ac := rfl
@[simp] theorem setAnswer_lr (s : State) (v : Option Answer) : (s.setAnswer v).lr = s.lr := rfl
@[simp] theorem setAnswer_sp (s : State) (v : Option Answer) : (s.setAnswer v).sp = s.sp := rfl
@[simp] theorem setAnswer_tmp (s : State) (v : Option Answer) : (s.setAnswer v).tmp = s.tmp := rfl
@[simp] theorem setAnswer_scratch (s : State) (v : Option Answer) : (s.setAnswer v).scratch = s.scratch := rfl
@[simp] theorem setAnswer_sysfn (s : State) (v : Option Answer) : (s.setAnswer v).sysfn = s.sysfn := rfl
@[simp] theorem setAnswer_sel (s : State) (v : Option Answer) : (s.setAnswer v).sel = s.sel := rfl
@[simp] theorem setAnswer_t (s : State) (v : Option Answer) : (s.setAnswer v).t = s.t := rfl
@[simp] theorem setAnswer_ipc (s : State) (v : Option Answer) : (s.setAnswer v).ipc = s.ipc := rfl
@[simp] theorem setAnswer_iac (s : State) (v : Option Answer) : (s.setAnswer v).iac = s.iac := rfl
@[simp] theorem setAnswer_isel (s : State) (v : Option Answer) : (s.setAnswer v).isel = s.isel := rfl
@[simp] theorem setAnswer_insvc (s : State) (v : Option Answer) : (s.setAnswer v).insvc = s.insvc := rfl
@[simp] theorem setAnswer_run (s : State) (v : Option Answer) : (s.setAnswer v).run = s.run := rfl
@[simp] theorem setAnswer_mem (s : State) (v : Option Answer) : (s.setAnswer v).mem = s.mem := rfl
@[simp] theorem setAnswer_sliceN (s : State) (v : Option Answer) : (s.setAnswer v).sliceN = s.sliceN := rfl
@[simp] theorem setAnswer_pending (s : State) (v : Option Answer) : (s.setAnswer v).pending = s.pending := rfl
@[simp] theorem setAnswer_answer (s : State) (v : Option Answer) : (s.setAnswer v).answer = v := rfl

/-! ### Updates of the secondary registers -/

@[simp] theorem setAd_cfg (s : State) (v : Word) : (s.setAd v).cfg = s.cfg := rfl
@[simp] theorem setAd_pc (s : State) (v : Word) : (s.setAd v).pc = s.pc := rfl
@[simp] theorem setAd_ac (s : State) (v : Word) : (s.setAd v).ac = s.ac := rfl
@[simp] theorem setAd_lr (s : State) (v : Word) : (s.setAd v).lr = s.lr := rfl
@[simp] theorem setAd_sp (s : State) (v : Word) : (s.setAd v).sp = s.sp := rfl
@[simp] theorem setAd_tmp (s : State) (v : Word) : (s.setAd v).tmp = s.tmp := rfl
@[simp] theorem setAd_sysfn (s : State) (v : Word) : (s.setAd v).sysfn = s.sysfn := rfl
@[simp] theorem setAd_sel (s : State) (v : Word) : (s.setAd v).sel = s.sel := rfl
@[simp] theorem setAd_t (s : State) (v : Word) : (s.setAd v).t = s.t := rfl
@[simp] theorem setAd_ipc (s : State) (v : Word) : (s.setAd v).ipc = s.ipc := rfl
@[simp] theorem setAd_iac (s : State) (v : Word) : (s.setAd v).iac = s.iac := rfl
@[simp] theorem setAd_isel (s : State) (v : Word) : (s.setAd v).isel = s.isel := rfl
@[simp] theorem setAd_insvc (s : State) (v : Word) : (s.setAd v).insvc = s.insvc := rfl
@[simp] theorem setAd_run (s : State) (v : Word) : (s.setAd v).run = s.run := rfl
@[simp] theorem setAd_mem (s : State) (v : Word) : (s.setAd v).mem = s.mem := rfl
@[simp] theorem setAd_sliceN (s : State) (v : Word) : (s.setAd v).sliceN = s.sliceN := rfl
@[simp] theorem setAd_pending (s : State) (v : Word) : (s.setAd v).pending = s.pending := rfl
@[simp] theorem setAd_answer (s : State) (v : Word) : (s.setAd v).answer = s.answer := rfl
@[simp] theorem setAd_adl (s : State) (v : Word) : (s.setAd v).adl = loByte v := rfl
@[simp] theorem setAd_adh (s : State) (v : Word) : (s.setAd v).adh = hiByte v := rfl
@[simp] theorem setAd_ir (s : State) (v : Word) : (s.setAd v).ir = s.ir := rfl
@[simp] theorem setAd_p (s : State) (v : Word) : (s.setAd v).p = s.p := rfl
@[simp] theorem setAd_qz (s : State) (v : Word) : (s.setAd v).qz = s.qz := rfl
@[simp] theorem setAd_qn (s : State) (v : Word) : (s.setAd v).qn = s.qn := rfl
@[simp] theorem setAd_x (s : State) (v : Word) : (s.setAd v).x = s.x := rfl
@[simp] theorem setAd_y (s : State) (v : Word) : (s.setAd v).y = s.y := rfl
@[simp] theorem setAd_a (s : State) (v : Word) : (s.setAd v).a = s.a := rfl
@[simp] theorem setIr_cfg (s : State) (v : Byte) : (s.setIr v).cfg = s.cfg := rfl
@[simp] theorem setIr_pc (s : State) (v : Byte) : (s.setIr v).pc = s.pc := rfl
@[simp] theorem setIr_ac (s : State) (v : Byte) : (s.setIr v).ac = s.ac := rfl
@[simp] theorem setIr_lr (s : State) (v : Byte) : (s.setIr v).lr = s.lr := rfl
@[simp] theorem setIr_sp (s : State) (v : Byte) : (s.setIr v).sp = s.sp := rfl
@[simp] theorem setIr_tmp (s : State) (v : Byte) : (s.setIr v).tmp = s.tmp := rfl
@[simp] theorem setIr_sysfn (s : State) (v : Byte) : (s.setIr v).sysfn = s.sysfn := rfl
@[simp] theorem setIr_sel (s : State) (v : Byte) : (s.setIr v).sel = s.sel := rfl
@[simp] theorem setIr_t (s : State) (v : Byte) : (s.setIr v).t = s.t := rfl
@[simp] theorem setIr_ipc (s : State) (v : Byte) : (s.setIr v).ipc = s.ipc := rfl
@[simp] theorem setIr_iac (s : State) (v : Byte) : (s.setIr v).iac = s.iac := rfl
@[simp] theorem setIr_isel (s : State) (v : Byte) : (s.setIr v).isel = s.isel := rfl
@[simp] theorem setIr_insvc (s : State) (v : Byte) : (s.setIr v).insvc = s.insvc := rfl
@[simp] theorem setIr_run (s : State) (v : Byte) : (s.setIr v).run = s.run := rfl
@[simp] theorem setIr_mem (s : State) (v : Byte) : (s.setIr v).mem = s.mem := rfl
@[simp] theorem setIr_sliceN (s : State) (v : Byte) : (s.setIr v).sliceN = s.sliceN := rfl
@[simp] theorem setIr_pending (s : State) (v : Byte) : (s.setIr v).pending = s.pending := rfl
@[simp] theorem setIr_answer (s : State) (v : Byte) : (s.setIr v).answer = s.answer := rfl
@[simp] theorem setIr_adl (s : State) (v : Byte) : (s.setIr v).adl = s.adl := rfl
@[simp] theorem setIr_adh (s : State) (v : Byte) : (s.setIr v).adh = s.adh := rfl
@[simp] theorem setIr_ir (s : State) (v : Byte) : (s.setIr v).ir = v := rfl
@[simp] theorem setIr_p (s : State) (v : Byte) : (s.setIr v).p = s.p := rfl
@[simp] theorem setIr_qz (s : State) (v : Byte) : (s.setIr v).qz = s.qz := rfl
@[simp] theorem setIr_qn (s : State) (v : Byte) : (s.setIr v).qn = s.qn := rfl
@[simp] theorem setIr_x (s : State) (v : Byte) : (s.setIr v).x = s.x := rfl
@[simp] theorem setIr_y (s : State) (v : Byte) : (s.setIr v).y = s.y := rfl
@[simp] theorem setIr_a (s : State) (v : Byte) : (s.setIr v).a = s.a := rfl
@[simp] theorem setP_cfg (s : State) (v : Byte) : (s.setP v).cfg = s.cfg := rfl
@[simp] theorem setP_pc (s : State) (v : Byte) : (s.setP v).pc = s.pc := rfl
@[simp] theorem setP_ac (s : State) (v : Byte) : (s.setP v).ac = s.ac := rfl
@[simp] theorem setP_lr (s : State) (v : Byte) : (s.setP v).lr = s.lr := rfl
@[simp] theorem setP_sp (s : State) (v : Byte) : (s.setP v).sp = s.sp := rfl
@[simp] theorem setP_tmp (s : State) (v : Byte) : (s.setP v).tmp = s.tmp := rfl
@[simp] theorem setP_sysfn (s : State) (v : Byte) : (s.setP v).sysfn = s.sysfn := rfl
@[simp] theorem setP_sel (s : State) (v : Byte) : (s.setP v).sel = s.sel := rfl
@[simp] theorem setP_t (s : State) (v : Byte) : (s.setP v).t = s.t := rfl
@[simp] theorem setP_ipc (s : State) (v : Byte) : (s.setP v).ipc = s.ipc := rfl
@[simp] theorem setP_iac (s : State) (v : Byte) : (s.setP v).iac = s.iac := rfl
@[simp] theorem setP_isel (s : State) (v : Byte) : (s.setP v).isel = s.isel := rfl
@[simp] theorem setP_insvc (s : State) (v : Byte) : (s.setP v).insvc = s.insvc := rfl
@[simp] theorem setP_run (s : State) (v : Byte) : (s.setP v).run = s.run := rfl
@[simp] theorem setP_mem (s : State) (v : Byte) : (s.setP v).mem = s.mem := rfl
@[simp] theorem setP_sliceN (s : State) (v : Byte) : (s.setP v).sliceN = s.sliceN := rfl
@[simp] theorem setP_pending (s : State) (v : Byte) : (s.setP v).pending = s.pending := rfl
@[simp] theorem setP_answer (s : State) (v : Byte) : (s.setP v).answer = s.answer := rfl
@[simp] theorem setP_adl (s : State) (v : Byte) : (s.setP v).adl = s.adl := rfl
@[simp] theorem setP_adh (s : State) (v : Byte) : (s.setP v).adh = s.adh := rfl
@[simp] theorem setP_ir (s : State) (v : Byte) : (s.setP v).ir = s.ir := rfl
@[simp] theorem setP_p (s : State) (v : Byte) : (s.setP v).p = v := rfl
@[simp] theorem setP_qz (s : State) (v : Byte) : (s.setP v).qz = s.qz := rfl
@[simp] theorem setP_qn (s : State) (v : Byte) : (s.setP v).qn = s.qn := rfl
@[simp] theorem setP_x (s : State) (v : Byte) : (s.setP v).x = s.x := rfl
@[simp] theorem setP_y (s : State) (v : Byte) : (s.setP v).y = s.y := rfl
@[simp] theorem setP_a (s : State) (v : Byte) : (s.setP v).a = s.a := rfl
@[simp] theorem setQ_cfg (s : State) (z n : Byte) : (s.setQ z n).cfg = s.cfg := rfl
@[simp] theorem setQ_pc (s : State) (z n : Byte) : (s.setQ z n).pc = s.pc := rfl
@[simp] theorem setQ_ac (s : State) (z n : Byte) : (s.setQ z n).ac = s.ac := rfl
@[simp] theorem setQ_lr (s : State) (z n : Byte) : (s.setQ z n).lr = s.lr := rfl
@[simp] theorem setQ_sp (s : State) (z n : Byte) : (s.setQ z n).sp = s.sp := rfl
@[simp] theorem setQ_tmp (s : State) (z n : Byte) : (s.setQ z n).tmp = s.tmp := rfl
@[simp] theorem setQ_sysfn (s : State) (z n : Byte) : (s.setQ z n).sysfn = s.sysfn := rfl
@[simp] theorem setQ_sel (s : State) (z n : Byte) : (s.setQ z n).sel = s.sel := rfl
@[simp] theorem setQ_t (s : State) (z n : Byte) : (s.setQ z n).t = s.t := rfl
@[simp] theorem setQ_ipc (s : State) (z n : Byte) : (s.setQ z n).ipc = s.ipc := rfl
@[simp] theorem setQ_iac (s : State) (z n : Byte) : (s.setQ z n).iac = s.iac := rfl
@[simp] theorem setQ_isel (s : State) (z n : Byte) : (s.setQ z n).isel = s.isel := rfl
@[simp] theorem setQ_insvc (s : State) (z n : Byte) : (s.setQ z n).insvc = s.insvc := rfl
@[simp] theorem setQ_run (s : State) (z n : Byte) : (s.setQ z n).run = s.run := rfl
@[simp] theorem setQ_mem (s : State) (z n : Byte) : (s.setQ z n).mem = s.mem := rfl
@[simp] theorem setQ_sliceN (s : State) (z n : Byte) : (s.setQ z n).sliceN = s.sliceN := rfl
@[simp] theorem setQ_pending (s : State) (z n : Byte) : (s.setQ z n).pending = s.pending := rfl
@[simp] theorem setQ_answer (s : State) (z n : Byte) : (s.setQ z n).answer = s.answer := rfl
@[simp] theorem setQ_adl (s : State) (z n : Byte) : (s.setQ z n).adl = s.adl := rfl
@[simp] theorem setQ_adh (s : State) (z n : Byte) : (s.setQ z n).adh = s.adh := rfl
@[simp] theorem setQ_ir (s : State) (z n : Byte) : (s.setQ z n).ir = s.ir := rfl
@[simp] theorem setQ_p (s : State) (z n : Byte) : (s.setQ z n).p = s.p := rfl
@[simp] theorem setQ_qz (s : State) (z n : Byte) : (s.setQ z n).qz = z := rfl
@[simp] theorem setQ_qn (s : State) (z n : Byte) : (s.setQ z n).qn = n := rfl
@[simp] theorem setQ_x (s : State) (z n : Byte) : (s.setQ z n).x = s.x := rfl
@[simp] theorem setQ_y (s : State) (z n : Byte) : (s.setQ z n).y = s.y := rfl
@[simp] theorem setQ_a (s : State) (z n : Byte) : (s.setQ z n).a = s.a := rfl
@[simp] theorem setX_cfg (s : State) (v : Byte) : (s.setX v).cfg = s.cfg := rfl
@[simp] theorem setX_pc (s : State) (v : Byte) : (s.setX v).pc = s.pc := rfl
@[simp] theorem setX_ac (s : State) (v : Byte) : (s.setX v).ac = s.ac := rfl
@[simp] theorem setX_lr (s : State) (v : Byte) : (s.setX v).lr = s.lr := rfl
@[simp] theorem setX_sp (s : State) (v : Byte) : (s.setX v).sp = s.sp := rfl
@[simp] theorem setX_tmp (s : State) (v : Byte) : (s.setX v).tmp = s.tmp := rfl
@[simp] theorem setX_sysfn (s : State) (v : Byte) : (s.setX v).sysfn = s.sysfn := rfl
@[simp] theorem setX_sel (s : State) (v : Byte) : (s.setX v).sel = s.sel := rfl
@[simp] theorem setX_t (s : State) (v : Byte) : (s.setX v).t = s.t := rfl
@[simp] theorem setX_ipc (s : State) (v : Byte) : (s.setX v).ipc = s.ipc := rfl
@[simp] theorem setX_iac (s : State) (v : Byte) : (s.setX v).iac = s.iac := rfl
@[simp] theorem setX_isel (s : State) (v : Byte) : (s.setX v).isel = s.isel := rfl
@[simp] theorem setX_insvc (s : State) (v : Byte) : (s.setX v).insvc = s.insvc := rfl
@[simp] theorem setX_run (s : State) (v : Byte) : (s.setX v).run = s.run := rfl
@[simp] theorem setX_mem (s : State) (v : Byte) : (s.setX v).mem = s.mem := rfl
@[simp] theorem setX_sliceN (s : State) (v : Byte) : (s.setX v).sliceN = s.sliceN := rfl
@[simp] theorem setX_pending (s : State) (v : Byte) : (s.setX v).pending = s.pending := rfl
@[simp] theorem setX_answer (s : State) (v : Byte) : (s.setX v).answer = s.answer := rfl
@[simp] theorem setX_adl (s : State) (v : Byte) : (s.setX v).adl = s.adl := rfl
@[simp] theorem setX_adh (s : State) (v : Byte) : (s.setX v).adh = s.adh := rfl
@[simp] theorem setX_ir (s : State) (v : Byte) : (s.setX v).ir = s.ir := rfl
@[simp] theorem setX_p (s : State) (v : Byte) : (s.setX v).p = s.p := rfl
@[simp] theorem setX_qz (s : State) (v : Byte) : (s.setX v).qz = s.qz := rfl
@[simp] theorem setX_qn (s : State) (v : Byte) : (s.setX v).qn = s.qn := rfl
@[simp] theorem setX_x (s : State) (v : Byte) : (s.setX v).x = v := rfl
@[simp] theorem setX_y (s : State) (v : Byte) : (s.setX v).y = s.y := rfl
@[simp] theorem setX_a (s : State) (v : Byte) : (s.setX v).a = s.a := rfl
@[simp] theorem setY_cfg (s : State) (v : Byte) : (s.setY v).cfg = s.cfg := rfl
@[simp] theorem setY_pc (s : State) (v : Byte) : (s.setY v).pc = s.pc := rfl
@[simp] theorem setY_ac (s : State) (v : Byte) : (s.setY v).ac = s.ac := rfl
@[simp] theorem setY_lr (s : State) (v : Byte) : (s.setY v).lr = s.lr := rfl
@[simp] theorem setY_sp (s : State) (v : Byte) : (s.setY v).sp = s.sp := rfl
@[simp] theorem setY_tmp (s : State) (v : Byte) : (s.setY v).tmp = s.tmp := rfl
@[simp] theorem setY_sysfn (s : State) (v : Byte) : (s.setY v).sysfn = s.sysfn := rfl
@[simp] theorem setY_sel (s : State) (v : Byte) : (s.setY v).sel = s.sel := rfl
@[simp] theorem setY_t (s : State) (v : Byte) : (s.setY v).t = s.t := rfl
@[simp] theorem setY_ipc (s : State) (v : Byte) : (s.setY v).ipc = s.ipc := rfl
@[simp] theorem setY_iac (s : State) (v : Byte) : (s.setY v).iac = s.iac := rfl
@[simp] theorem setY_isel (s : State) (v : Byte) : (s.setY v).isel = s.isel := rfl
@[simp] theorem setY_insvc (s : State) (v : Byte) : (s.setY v).insvc = s.insvc := rfl
@[simp] theorem setY_run (s : State) (v : Byte) : (s.setY v).run = s.run := rfl
@[simp] theorem setY_mem (s : State) (v : Byte) : (s.setY v).mem = s.mem := rfl
@[simp] theorem setY_sliceN (s : State) (v : Byte) : (s.setY v).sliceN = s.sliceN := rfl
@[simp] theorem setY_pending (s : State) (v : Byte) : (s.setY v).pending = s.pending := rfl
@[simp] theorem setY_answer (s : State) (v : Byte) : (s.setY v).answer = s.answer := rfl
@[simp] theorem setY_adl (s : State) (v : Byte) : (s.setY v).adl = s.adl := rfl
@[simp] theorem setY_adh (s : State) (v : Byte) : (s.setY v).adh = s.adh := rfl
@[simp] theorem setY_ir (s : State) (v : Byte) : (s.setY v).ir = s.ir := rfl
@[simp] theorem setY_p (s : State) (v : Byte) : (s.setY v).p = s.p := rfl
@[simp] theorem setY_qz (s : State) (v : Byte) : (s.setY v).qz = s.qz := rfl
@[simp] theorem setY_qn (s : State) (v : Byte) : (s.setY v).qn = s.qn := rfl
@[simp] theorem setY_x (s : State) (v : Byte) : (s.setY v).x = s.x := rfl
@[simp] theorem setY_y (s : State) (v : Byte) : (s.setY v).y = v := rfl
@[simp] theorem setY_a (s : State) (v : Byte) : (s.setY v).a = s.a := rfl
@[simp] theorem setZN_cfg (s : State) (v : Byte) : (s.setZN v).cfg = s.cfg := rfl
@[simp] theorem setZN_pc (s : State) (v : Byte) : (s.setZN v).pc = s.pc := rfl
@[simp] theorem setZN_ac (s : State) (v : Byte) : (s.setZN v).ac = s.ac := rfl
@[simp] theorem setZN_lr (s : State) (v : Byte) : (s.setZN v).lr = s.lr := rfl
@[simp] theorem setZN_sp (s : State) (v : Byte) : (s.setZN v).sp = s.sp := rfl
@[simp] theorem setZN_tmp (s : State) (v : Byte) : (s.setZN v).tmp = s.tmp := rfl
@[simp] theorem setZN_sysfn (s : State) (v : Byte) : (s.setZN v).sysfn = s.sysfn := rfl
@[simp] theorem setZN_sel (s : State) (v : Byte) : (s.setZN v).sel = s.sel := rfl
@[simp] theorem setZN_t (s : State) (v : Byte) : (s.setZN v).t = s.t := rfl
@[simp] theorem setZN_ipc (s : State) (v : Byte) : (s.setZN v).ipc = s.ipc := rfl
@[simp] theorem setZN_iac (s : State) (v : Byte) : (s.setZN v).iac = s.iac := rfl
@[simp] theorem setZN_isel (s : State) (v : Byte) : (s.setZN v).isel = s.isel := rfl
@[simp] theorem setZN_insvc (s : State) (v : Byte) : (s.setZN v).insvc = s.insvc := rfl
@[simp] theorem setZN_run (s : State) (v : Byte) : (s.setZN v).run = s.run := rfl
@[simp] theorem setZN_mem (s : State) (v : Byte) : (s.setZN v).mem = s.mem := rfl
@[simp] theorem setZN_sliceN (s : State) (v : Byte) : (s.setZN v).sliceN = s.sliceN := rfl
@[simp] theorem setZN_pending (s : State) (v : Byte) : (s.setZN v).pending = s.pending := rfl
@[simp] theorem setZN_answer (s : State) (v : Byte) : (s.setZN v).answer = s.answer := rfl
@[simp] theorem setZN_adl (s : State) (v : Byte) : (s.setZN v).adl = s.adl := rfl
@[simp] theorem setZN_adh (s : State) (v : Byte) : (s.setZN v).adh = s.adh := rfl
@[simp] theorem setZN_ir (s : State) (v : Byte) : (s.setZN v).ir = s.ir := rfl
@[simp] theorem setZN_p (s : State) (v : Byte) : (s.setZN v).p = s.p := rfl
@[simp] theorem setZN_qz (s : State) (v : Byte) : (s.setZN v).qz = v := rfl
@[simp] theorem setZN_qn (s : State) (v : Byte) : (s.setZN v).qn = v := rfl
@[simp] theorem setZN_x (s : State) (v : Byte) : (s.setZN v).x = s.x := rfl
@[simp] theorem setZN_y (s : State) (v : Byte) : (s.setZN v).y = s.y := rfl
@[simp] theorem setZN_a (s : State) (v : Byte) : (s.setZN v).a = s.a := rfl

/-! ### A, the accounting and the slice exit -/

@[simp] theorem setA_cfg (s : State) (v : Byte) : (s.setA v).cfg = s.cfg := rfl
@[simp] theorem setA_pc (s : State) (v : Byte) : (s.setA v).pc = s.pc := rfl
@[simp] theorem setA_lr (s : State) (v : Byte) : (s.setA v).lr = s.lr := rfl
@[simp] theorem setA_sp (s : State) (v : Byte) : (s.setA v).sp = s.sp := rfl
@[simp] theorem setA_tmp (s : State) (v : Byte) : (s.setA v).tmp = s.tmp := rfl
@[simp] theorem setA_scratch (s : State) (v : Byte) : (s.setA v).scratch = s.scratch := rfl
@[simp] theorem setA_sysfn (s : State) (v : Byte) : (s.setA v).sysfn = s.sysfn := rfl
@[simp] theorem setA_sel (s : State) (v : Byte) : (s.setA v).sel = s.sel := rfl
@[simp] theorem setA_t (s : State) (v : Byte) : (s.setA v).t = s.t := rfl
@[simp] theorem setA_ipc (s : State) (v : Byte) : (s.setA v).ipc = s.ipc := rfl
@[simp] theorem setA_iac (s : State) (v : Byte) : (s.setA v).iac = s.iac := rfl
@[simp] theorem setA_isel (s : State) (v : Byte) : (s.setA v).isel = s.isel := rfl
@[simp] theorem setA_insvc (s : State) (v : Byte) : (s.setA v).insvc = s.insvc := rfl
@[simp] theorem setA_run (s : State) (v : Byte) : (s.setA v).run = s.run := rfl
@[simp] theorem setA_mem (s : State) (v : Byte) : (s.setA v).mem = s.mem := rfl
@[simp] theorem setA_sliceN (s : State) (v : Byte) : (s.setA v).sliceN = s.sliceN := rfl
@[simp] theorem setA_pending (s : State) (v : Byte) : (s.setA v).pending = s.pending := rfl
@[simp] theorem setA_answer (s : State) (v : Byte) : (s.setA v).answer = s.answer := rfl
@[simp] theorem setA_ac (s : State) (v : Byte) : (s.setA v).ac = mkWord (hiByte s.ac) v := rfl
@[simp] theorem setA_adl (s : State) (v : Byte) : (s.setA v).adl = s.adl := rfl
@[simp] theorem setA_adh (s : State) (v : Byte) : (s.setA v).adh = s.adh := rfl
@[simp] theorem setA_ir (s : State) (v : Byte) : (s.setA v).ir = s.ir := rfl
@[simp] theorem setA_p (s : State) (v : Byte) : (s.setA v).p = s.p := rfl
@[simp] theorem setA_qz (s : State) (v : Byte) : (s.setA v).qz = s.qz := rfl
@[simp] theorem setA_qn (s : State) (v : Byte) : (s.setA v).qn = s.qn := rfl
@[simp] theorem setA_x (s : State) (v : Byte) : (s.setA v).x = s.x := rfl
@[simp] theorem setA_y (s : State) (v : Byte) : (s.setA v).y = s.y := rfl
@[simp] theorem charge_cfg (s : State) (c : Nat) : (s.charge c).cfg = s.cfg := rfl
@[simp] theorem charge_pc (s : State) (c : Nat) : (s.charge c).pc = s.pc := rfl
@[simp] theorem charge_ac (s : State) (c : Nat) : (s.charge c).ac = s.ac := rfl
@[simp] theorem charge_lr (s : State) (c : Nat) : (s.charge c).lr = s.lr := rfl
@[simp] theorem charge_sp (s : State) (c : Nat) : (s.charge c).sp = s.sp := rfl
@[simp] theorem charge_tmp (s : State) (c : Nat) : (s.charge c).tmp = s.tmp := rfl
@[simp] theorem charge_scratch (s : State) (c : Nat) : (s.charge c).scratch = s.scratch := rfl
@[simp] theorem charge_sysfn (s : State) (c : Nat) : (s.charge c).sysfn = s.sysfn := rfl
@[simp] theorem charge_sel (s : State) (c : Nat) : (s.charge c).sel = s.sel := rfl
@[simp] theorem charge_t (s : State) (c : Nat) : (s.charge c).t = s.t - c := rfl
@[simp] theorem charge_ipc (s : State) (c : Nat) : (s.charge c).ipc = s.ipc := rfl
@[simp] theorem charge_iac (s : State) (c : Nat) : (s.charge c).iac = s.iac := rfl
@[simp] theorem charge_isel (s : State) (c : Nat) : (s.charge c).isel = s.isel := rfl
@[simp] theorem charge_insvc (s : State) (c : Nat) : (s.charge c).insvc = s.insvc := rfl
@[simp] theorem charge_run (s : State) (c : Nat) : (s.charge c).run = s.run := rfl
@[simp] theorem charge_mem (s : State) (c : Nat) : (s.charge c).mem = s.mem := rfl
@[simp] theorem charge_sliceN (s : State) (c : Nat) : (s.charge c).sliceN = s.sliceN := rfl
@[simp] theorem charge_pending (s : State) (c : Nat) : (s.charge c).pending = s.pending := rfl
@[simp] theorem charge_answer (s : State) (c : Nat) : (s.charge c).answer = s.answer := rfl
@[simp] theorem exitSlice_cfg (s : State) (r : ExitReason) : (s.exitSlice r).cfg = s.cfg := rfl
@[simp] theorem exitSlice_pc (s : State) (r : ExitReason) : (s.exitSlice r).pc = s.pc := rfl
@[simp] theorem exitSlice_ac (s : State) (r : ExitReason) : (s.exitSlice r).ac = s.ac := rfl
@[simp] theorem exitSlice_lr (s : State) (r : ExitReason) : (s.exitSlice r).lr = s.lr := rfl
@[simp] theorem exitSlice_sp (s : State) (r : ExitReason) : (s.exitSlice r).sp = s.sp := rfl
@[simp] theorem exitSlice_tmp (s : State) (r : ExitReason) : (s.exitSlice r).tmp = s.tmp := rfl
@[simp] theorem exitSlice_scratch (s : State) (r : ExitReason) : (s.exitSlice r).scratch = s.scratch := rfl
@[simp] theorem exitSlice_sysfn (s : State) (r : ExitReason) : (s.exitSlice r).sysfn = s.sysfn := rfl
@[simp] theorem exitSlice_sel (s : State) (r : ExitReason) : (s.exitSlice r).sel = s.sel := rfl
@[simp] theorem exitSlice_t (s : State) (r : ExitReason) : (s.exitSlice r).t = s.t := rfl
@[simp] theorem exitSlice_ipc (s : State) (r : ExitReason) : (s.exitSlice r).ipc = s.ipc := rfl
@[simp] theorem exitSlice_iac (s : State) (r : ExitReason) : (s.exitSlice r).iac = s.iac := rfl
@[simp] theorem exitSlice_isel (s : State) (r : ExitReason) : (s.exitSlice r).isel = s.isel := rfl
@[simp] theorem exitSlice_insvc (s : State) (r : ExitReason) : (s.exitSlice r).insvc = s.insvc := rfl
@[simp] theorem exitSlice_run (s : State) (r : ExitReason) : (s.exitSlice r).run = .idle := rfl
@[simp] theorem exitSlice_mem (s : State) (r : ExitReason) : (s.exitSlice r).mem = s.mem := rfl
@[simp] theorem exitSlice_sliceN (s : State) (r : ExitReason) : (s.exitSlice r).sliceN = s.sliceN := rfl
@[simp] theorem exitSlice_pending (s : State) (r : ExitReason) : (s.exitSlice r).pending = s.pending := rfl
@[simp] theorem exitSlice_answer (s : State) (r : ExitReason) : (s.exitSlice r).answer = some (.sliceExit r s.sliceN) := rfl
@[simp] theorem defer_cfg (s : State) (r : DeferReason) : (s.defer r).cfg = s.cfg := rfl
@[simp] theorem defer_pc (s : State) (r : DeferReason) : (s.defer r).pc = s.pc := rfl
@[simp] theorem defer_ac (s : State) (r : DeferReason) : (s.defer r).ac = s.ac := rfl
@[simp] theorem defer_lr (s : State) (r : DeferReason) : (s.defer r).lr = s.lr := rfl
@[simp] theorem defer_sp (s : State) (r : DeferReason) : (s.defer r).sp = s.sp := rfl
@[simp] theorem defer_tmp (s : State) (r : DeferReason) : (s.defer r).tmp = s.tmp := rfl
@[simp] theorem defer_scratch (s : State) (r : DeferReason) : (s.defer r).scratch = s.scratch := rfl
@[simp] theorem defer_sysfn (s : State) (r : DeferReason) : (s.defer r).sysfn = s.sysfn := rfl
@[simp] theorem defer_sel (s : State) (r : DeferReason) : (s.defer r).sel = s.sel := rfl
@[simp] theorem defer_t (s : State) (r : DeferReason) : (s.defer r).t = s.t := rfl
@[simp] theorem defer_ipc (s : State) (r : DeferReason) : (s.defer r).ipc = s.ipc := rfl
@[simp] theorem defer_iac (s : State) (r : DeferReason) : (s.defer r).iac = s.iac := rfl
@[simp] theorem defer_isel (s : State) (r : DeferReason) : (s.defer r).isel = s.isel := rfl
@[simp] theorem defer_insvc (s : State) (r : DeferReason) : (s.defer r).insvc = s.insvc := rfl
@[simp] theorem defer_run (s : State) (r : DeferReason) : (s.defer r).run = .idle := rfl
@[simp] theorem defer_mem (s : State) (r : DeferReason) : (s.defer r).mem = s.mem := rfl
@[simp] theorem defer_sliceN (s : State) (r : DeferReason) : (s.defer r).sliceN = s.sliceN := rfl
@[simp] theorem defer_pending (s : State) (r : DeferReason) : (s.defer r).pending = s.pending := rfl
@[simp] theorem defer_answer (s : State) (r : DeferReason) : (s.defer r).answer = some (.sliceExit (.deferred r) s.sliceN) := rfl

/-! ### What MemWrite leaves alone -/

@[simp] theorem memWrite_cfg (s : State) (a : Word) (v : Byte) : (s.memWrite a v).cfg = s.cfg := by
  unfold memWrite; split_ifs <;> rfl
@[simp] theorem memWrite_pc (s : State) (a : Word) (v : Byte) : (s.memWrite a v).pc = s.pc := by
  unfold memWrite; split_ifs <;> rfl
@[simp] theorem memWrite_ac (s : State) (a : Word) (v : Byte) : (s.memWrite a v).ac = s.ac := by
  unfold memWrite; split_ifs <;> rfl
@[simp] theorem memWrite_lr (s : State) (a : Word) (v : Byte) : (s.memWrite a v).lr = s.lr := by
  unfold memWrite; split_ifs <;> rfl
@[simp] theorem memWrite_sp (s : State) (a : Word) (v : Byte) : (s.memWrite a v).sp = s.sp := by
  unfold memWrite; split_ifs <;> rfl
@[simp] theorem memWrite_tmp (s : State) (a : Word) (v : Byte) : (s.memWrite a v).tmp = s.tmp := by
  unfold memWrite; split_ifs <;> rfl
@[simp] theorem memWrite_sel (s : State) (a : Word) (v : Byte) : (s.memWrite a v).sel = s.sel := by
  unfold memWrite; split_ifs <;> rfl
@[simp] theorem memWrite_t (s : State) (a : Word) (v : Byte) : (s.memWrite a v).t = s.t := by
  unfold memWrite; split_ifs <;> rfl
@[simp] theorem memWrite_ipc (s : State) (a : Word) (v : Byte) : (s.memWrite a v).ipc = s.ipc := by
  unfold memWrite; split_ifs <;> rfl
@[simp] theorem memWrite_iac (s : State) (a : Word) (v : Byte) : (s.memWrite a v).iac = s.iac := by
  unfold memWrite; split_ifs <;> rfl
@[simp] theorem memWrite_isel (s : State) (a : Word) (v : Byte) : (s.memWrite a v).isel = s.isel := by
  unfold memWrite; split_ifs <;> rfl
@[simp] theorem memWrite_insvc (s : State) (a : Word) (v : Byte) : (s.memWrite a v).insvc = s.insvc := by
  unfold memWrite; split_ifs <;> rfl
@[simp] theorem memWrite_run (s : State) (a : Word) (v : Byte) : (s.memWrite a v).run = s.run := by
  unfold memWrite; split_ifs <;> rfl
@[simp] theorem memWrite_sliceN (s : State) (a : Word) (v : Byte) : (s.memWrite a v).sliceN = s.sliceN := by
  unfold memWrite; split_ifs <;> rfl
@[simp] theorem memWrite_pending (s : State) (a : Word) (v : Byte) : (s.memWrite a v).pending = s.pending := by
  unfold memWrite; split_ifs <;> rfl
@[simp] theorem memWrite_answer (s : State) (a : Word) (v : Byte) : (s.memWrite a v).answer = s.answer := by
  unfold memWrite; split_ifs <;> rfl

end Sys2Proof.Machine.State
end

