-- ==== Sys2Proof/Laws/Memory.lean ====
section
/-! SUPPORT. The laws of memory: a read after a write, every other byte left alone, the canonical form kept; and the
same for MemRead and MemWrite through the register windows (20_memory.md R62, R63, R66). -/

namespace Sys2Proof.Machine

theorem Memory.read_write_same (m : Memory) (k : Nat) (v : Byte) :
    Memory.read (Memory.write m k v) k = some v := by
  induction m with
  | nil => simp [Memory.write, Memory.read]
  | cons c m ih =>
    obtain ⟨a, w⟩ := c
    unfold Memory.write
    split_ifs with h1 h2
    · simp [Memory.read]
    · simp [Memory.read, h2]
    · have : a ≠ k := fun h => h2 h.symm
      simp [Memory.read, this, ih]

theorem Memory.read_write_other (m : Memory) {k j : Nat} (v : Byte) (h : j ≠ k) :
    Memory.read (Memory.write m k v) j = Memory.read m j := by
  induction m with
  | nil => simp [Memory.write, Memory.read, Ne.symm h]
  | cons c m ih =>
    obtain ⟨a, w⟩ := c
    unfold Memory.write
    split_ifs with h1 h2
    · simp [Memory.read, Ne.symm h]
    · subst h2
      simp [Memory.read, Ne.symm h]
    · by_cases ha : a = j <;> simp [Memory.read, ha, ih]

/-- What a write can list: the entries there were, and the entry written. -/
theorem Memory.mem_write {m : Memory} {k : Nat} {v : Byte} {c : Host.Cell} (h : c ∈ Memory.write m k v) :
    c.1 = k ∨ c ∈ m := by
  induction m with
  | nil => simp [Memory.write] at h; exact .inl (by rw [h])
  | cons d m ih =>
    obtain ⟨a, w⟩ := d
    unfold Memory.write at h
    split_ifs at h with h1 h2
    · rcases List.mem_cons.mp h with rfl | h
      · exact .inl rfl
      · exact .inr h
    · rcases List.mem_cons.mp h with rfl | h
      · exact .inl h2.symm
      · exact .inr (List.mem_cons_of_mem _ h)
    · rcases List.mem_cons.mp h with rfl | h
      · exact .inr (by simp)
      · exact (ih h).imp id (List.mem_cons_of_mem _)

/-- A write inside the 2^16 bytes keeps the canonical form. -/
theorem Memory.write_wf {m : Memory} {k : Nat} (v : Byte) (hm : Memory.wf m) (hk : k < memSize) :
    Memory.wf (Memory.write m k v) := by
  refine ⟨?_, fun c hc => (Memory.mem_write hc).elim (fun h => h ▸ hk) (hm.2 c)⟩
  obtain ⟨hs, -⟩ := hm
  induction m with
  | nil => simp [Memory.write]
  | cons d m ih =>
    obtain ⟨a, w⟩ := d
    rw [List.pairwise_cons] at hs
    unfold Memory.write
    split_ifs with h1 h2
    · exact List.pairwise_cons.mpr ⟨fun c hc => (List.mem_cons.mp hc).elim (fun h => h ▸ h1)
        (fun h => Nat.lt_trans h1 (hs.1 c h)), List.pairwise_cons.mpr hs⟩
    · exact List.pairwise_cons.mpr hs
    · refine List.pairwise_cons.mpr ⟨fun c hc => (Memory.mem_write hc).elim (fun h => ?_) (hs.1 c), ih hs.2⟩
      rw [h]; simp only; omega

theorem Scratch.get_set_same (x : Scratch) {k : Nat} (v : Byte) (hk : k < 8) : (x.set k v).get k = v := by
  interval_cases k <;> rfl

theorem Scratch.get_set_other (x : Scratch) {j k : Nat} (v : Byte) (hj : j < 8) (hk : k < 8) (h : j ≠ k) :
    (x.set k v).get j = x.get j := by
  interval_cases j <;> interval_cases k <;> first | rfl | exact absurd rfl h

@[simp] theorem loByte_mkWord (hi lo : Byte) : loByte (mkWord hi lo) = lo := by
  apply BitVec.eq_of_getLsbD_eq
  intro i hi'
  unfold loByte mkWord
  rw [BitVec.getLsbD_extractLsb']
  simp only [BitVec.getLsbD_append]
  simp [hi']

@[simp] theorem hiByte_mkWord (hi lo : Byte) : hiByte (mkWord hi lo) = hi := by
  apply BitVec.eq_of_getLsbD_eq
  intro i hi'
  unfold hiByte mkWord
  rw [BitVec.getLsbD_extractLsb']
  simp only [BitVec.getLsbD_append]
  simp [hi']

@[simp] theorem mkWord_bytes (w : Word) : mkWord (hiByte w) (loByte w) = w := by
  apply BitVec.eq_of_getLsbD_eq
  intro i hi'
  simp only [mkWord, hiByte, loByte, BitVec.getLsbD_append, BitVec.getLsbD_extractLsb']
  by_cases h : i < 8
  · simp [h]
  · have : i - 8 < 8 := by omega
    have h8 : 8 + (i - 8) = i := by omega
    simp [h, this, h8]

namespace State

theorem memRead_memWrite_same (s : State) (addr : Word) (v : Byte) :
    (s.memWrite addr v).memRead addr = some v := by
  unfold memWrite
  split_ifs with h1 h2 h2
  · simp [memRead, h1, h2]
  · simp [memRead, h1, h2]
  · have hk : addr.toNat - s.cfg.scratchAddr < 8 := by
      have := of_decide_eq_true h2
      omega
    simp [memRead, h1, h2, Scratch.get_set_same _ _ hk]
  · simp [memRead, h1, h2, Memory.read_write_same]

theorem memRead_memWrite_other (s : State) {addr b : Word} (v : Byte) (h : b ≠ addr) :
    (s.memWrite addr v).memRead b = s.memRead b := by
  have hn : b.toNat ≠ addr.toNat := fun e => h (BitVec.eq_of_toNat_eq e)
  unfold memWrite
  by_cases h1 : inSysfnWindow s.cfg addr = true
  · have ha := of_decide_eq_true h1
    rw [if_pos h1]
    by_cases hb : inSysfnWindow s.cfg b = true
    · have hb' := of_decide_eq_true hb
      by_cases e : addr.toNat = s.cfg.sysfnAddr
      · have eb : b.toNat ≠ s.cfg.sysfnAddr := by omega
        simp [memRead, hb, e, eb]
      · have eb : b.toNat = s.cfg.sysfnAddr := by omega
        simp [memRead, hb, e, eb]
    · simp [memRead, hb]; rfl
  · by_cases h2 : inScratchWindow s.cfg addr = true
    · have ha := of_decide_eq_true h2
      rw [if_neg h1, if_pos h2]
      by_cases hb : inScratchWindow s.cfg b = true
      · have hb' := of_decide_eq_true hb
        have := Scratch.get_set_other s.scratch (j := b.toNat - s.cfg.scratchAddr)
          (k := addr.toNat - s.cfg.scratchAddr) v (by omega) (by omega) (by omega)
        simp [memRead, hb, this]; rfl
      · simp [memRead, hb]; rfl
    · rw [if_neg h1, if_neg h2]
      simp [memRead, Memory.read_write_other s.mem v hn]; rfl

/-- MemRead depends on the configuration, the two window registers and the listed bytes only. -/
theorem memRead_congr {s t : State} (hc : t.cfg = s.cfg) (hf : t.sysfn = s.sysfn) (hx : t.scratch = s.scratch)
    (hm : t.mem = s.mem) (addr : Word) : t.memRead addr = s.memRead addr := by
  simp [memRead, hc, hf, hx, hm]

/-- Outside the SCRATCH window MemRead does not see SCRATCH. -/
theorem memRead_setScratch (s : State) (x : Scratch) {addr : Word} (h : inScratchWindow s.cfg addr = false) :
    (s.setScratch x).memRead addr = s.memRead addr := by
  simp [memRead, h]; rfl

/-! A write commutes with an update of a register that MemWrite neither reads nor writes. -/

theorem memWrite_setPc (s : State) (a w : Word) (v : Byte) : (s.setPc w).memWrite a v = (s.memWrite a v).setPc w := by
  unfold memWrite setPc setSysfn setScratch setMem
  split_ifs <;> rfl

theorem memWrite_setSp (s : State) (a : Word) (w v : Byte) : (s.setSp w).memWrite a v = (s.memWrite a v).setSp w := by
  unfold memWrite setSp setSysfn setScratch setMem
  split_ifs <;> rfl

theorem memWrite_setSel (s : State) (a : Word) (w v : Byte) :
    (s.setSel w).memWrite a v = (s.memWrite a v).setSel w := by
  unfold memWrite setSel setSysfn setScratch setMem
  split_ifs <;> rfl

theorem memWrite_setT (s : State) (a : Word) (w : Int) (v : Byte) :
    (s.setT w).memWrite a v = (s.memWrite a v).setT w := by
  unfold memWrite setT setSysfn setScratch setMem
  split_ifs <;> rfl

/-- A write changes memory and the two window registers only. -/
theorem memWrite_registers (s : State) (addr : Word) (v : Byte) :
    { s.memWrite addr v with mem := s.mem, sysfn := s.sysfn, scratch := s.scratch } = s := by
  unfold memWrite
  split_ifs <;> rfl

/-- A write through the windows keeps the memory good (20_memory.md R63, R66). -/
theorem memWrite_memoryGood {s : State} (addr : Word) (v : Byte) (h : MemoryGood s) :
    MemoryGood (s.memWrite addr v) := by
  unfold memWrite
  split_ifs with h1 h2 h2
  · exact ⟨h.canonical, h.noWindow⟩
  · exact ⟨h.canonical, h.noWindow⟩
  · exact ⟨h.canonical, h.noWindow⟩
  · refine ⟨Memory.write_wf v h.canonical addr.isLt, fun c hc => ?_⟩
    rcases Memory.mem_write hc with hk | hc
    · rw [hk]
      simpa using And.intro h1 h2
    · exact h.noWindow c hc

end State

end Sys2Proof.Machine
end

