-- ==== Sys2Proof/Laws/Steps.lean ====
section
/-! SUPPORT. What the shared operations can do, each said once: the shapes of a step, the end of a step, and the two
forms every instruction takes. A proof about the machine cites these and unfolds no step. -/

namespace Sys2Proof.Machine

/-! ### Results -/

theorem chargeResult_next {c : Nat} {r : Except Fault State} {t : State} :
    chargeResult c r = .next t ↔ ∃ u, r = .ok u ∧ t = u.charge c := by
  cases r <;> simp [chargeResult, eq_comm]

theorem bind_ok {α β : Type} {x : Except Fault α} {f : α → Except Fault β} {b : β} :
    x.bind f = .ok b ↔ ∃ a, x = .ok a ∧ f a = .ok b := by
  cases x <;> simp [Except.bind]

theorem do_ok {α β : Type} {x : Except Fault α} {f : α → Except Fault β} {b : β} :
    (x >>= f) = .ok b ↔ ∃ a, x = .ok a ∧ f a = .ok b := bind_ok

@[simp] theorem do_ok_eq {α β : Type} (a : α) (f : α → Except Fault β) :
    ((Except.ok a : Except Fault α) >>= f) = f a := rfl

@[simp] theorem do_error_eq {α β : Type} (e : Fault) (f : α → Except Fault β) :
    ((Except.error e : Except Fault α) >>= f) = .error e := rfl

namespace State

theorem readByte_ok {s : State} {addr : Word} {v : Byte} : s.readByte addr = .ok v ↔ s.memRead addr = some v := by
  unfold readByte
  cases s.memRead addr <;> simp

theorem readByte_of_some {s : State} {addr : Word} {v : Byte} (h : s.memRead addr = some v) :
    s.readByte addr = .ok v := readByte_ok.mpr h

theorem readByte_of_none {s : State} {addr : Word} (h : s.memRead addr = none) :
    s.readByte addr = .error .readUnwritten := by simp [readByte, h]

/-- A byte read either gives a value or stops with the one fault a read has. -/
theorem readByte_cases (s : State) (addr : Word) :
    (∃ v, s.memRead addr = some v ∧ s.readByte addr = .ok v) ∨
      (s.memRead addr = none ∧ s.readByte addr = .error .readUnwritten) := by
  unfold readByte
  cases s.memRead addr <;> simp

end State

/-! ### What the effect of an instruction leaves alone -/

/-- What every effect of a primary or secondary instruction leaves alone (SYS and RTI excepted), and the canonical form
of memory. -/
structure KeepsControl (s t : State) : Prop where
  cfg : t.cfg = s.cfg
  tmp : t.tmp = s.tmp
  ticks : t.t = s.t
  ipc : t.ipc = s.ipc
  iac : t.iac = s.iac
  isel : t.isel = s.isel
  insvc : t.insvc = s.insvc
  run : t.run = s.run
  sliceN : t.sliceN = s.sliceN
  pending : t.pending = s.pending
  answer : t.answer = s.answer
  memory : MemoryGood s → MemoryGood t

namespace KeepsControl

theorem refl (s : State) : KeepsControl s s := ⟨rfl, rfl, rfl, rfl, rfl, rfl, rfl, rfl, rfl, rfl, rfl, id⟩

theorem trans {s t u : State} (h : KeepsControl s t) (k : KeepsControl t u) : KeepsControl s u :=
  ⟨k.cfg.trans h.cfg, k.tmp.trans h.tmp, k.ticks.trans h.ticks, k.ipc.trans h.ipc, k.iac.trans h.iac, k.isel.trans h.isel,
   k.insvc.trans h.insvc, k.run.trans h.run, k.sliceN.trans h.sliceN, k.pending.trans h.pending,
   k.answer.trans h.answer, k.memory ∘ h.memory⟩

/-- An update that keeps the control fields, the configuration and the listed memory. -/
theorem of_eq {s t : State}
    (h : { t with
      pc := s.pc, ac := s.ac, lr := s.lr, sp := s.sp, scratch := s.scratch, sysfn := s.sysfn, sel := s.sel } = s) :
    KeepsControl s t := by
  have q : ∀ {α : Type} (f : State → α), _ := fun f => congrArg f h
  have hc : t.cfg = s.cfg := q State.cfg
  have hm : t.mem = s.mem := q State.mem
  exact ⟨hc, q State.tmp, q State.t, q State.ipc, q State.iac,
    q State.isel, q State.insvc, q State.run, q State.sliceN,
    q State.pending, q State.answer,
    fun g => ⟨hm ▸ g.canonical, by rw [hm, hc]; exact g.noWindow⟩⟩

theorem memWrite (s : State) (addr : Word) (v : Byte) : KeepsControl s (s.memWrite addr v) :=
  ⟨by simp, by unfold State.memWrite; split_ifs <;> rfl, by simp, by simp, by simp, by simp, by simp, by simp, by simp,
   by simp, by simp, State.memWrite_memoryGood addr v⟩

theorem setPc (s : State) (v : Word) : KeepsControl s (s.setPc v) := of_eq rfl
theorem setAc (s : State) (v : Word) : KeepsControl s (s.setAc v) := of_eq rfl
theorem setLr (s : State) (v : Word) : KeepsControl s (s.setLr v) := of_eq rfl
theorem setSp (s : State) (v : Byte) : KeepsControl s (s.setSp v) := of_eq rfl
theorem setSel (s : State) (v : Byte) : KeepsControl s (s.setSel v) := of_eq rfl
theorem setScratch (s : State) (v : Scratch) : KeepsControl s (s.setScratch v) := of_eq rfl

end KeepsControl

/-! ### The two shapes of an instruction -/

/-- A primary instruction that is neither SYS nor RTI answers its effect, charged, or the effect's fault. -/
theorem primaryStep_next {len : Word} {c : Nat} {eff : State → Except Fault State} {s t : State} :
    primaryStep len c eff s = .next t ↔ ∃ u, eff (s.setPc (s.pc + len)) = .ok u ∧ t = u.charge c :=
  chargeResult_next

/-- The cost of an operation at Execute (30_encoding.md R103). -/
def Operation.cost (c : Config) : Operation → Nat
  | .lda => c.exCost.lda | .ldx => c.exCost.ldx | .ldy => c.exCost.ldy | .sta => c.exCost.sta
  | .stx => c.exCost.stx | .sty => c.exCost.sty | .adc => c.exCost.adc | .sbc => c.exCost.sbc
  | .cmp => c.exCost.cmp | .jmp => c.exCost.jmp | .inx => c.exCost.inx | .iny => c.exCost.iny
  | .dex => c.exCost.dex | .dey => c.exCost.dey | .tax => c.exCost.tax | .tay => c.exCost.tay
  | .txa => c.exCost.txa | .tya => c.exCost.tya | .clc => c.exCost.clc | .sec => c.exCost.sec
  | .pha => c.exCost.pha | .pla => c.exCost.pla | .php => c.exCost.php | .plp => c.exCost.plp
  | .nop => c.exCost.nop | .brk => c.exCost.brk | .bpl => c.exCost.bpl | .bmi => c.exCost.bmi
  | .bvc => c.exCost.bvc | .bvs => c.exCost.bvs | .bcc => c.exCost.bcc | .bcs => c.exCost.bcs
  | .bne => c.exCost.bne | .beq => c.exCost.beq | .esc => c.exCost.brk

/-- The effect of an operation at Execute (44_secondary.md R256 to R291). -/
def Operation.effect : Operation → State → Except Fault State
  | .lda => loadA | .ldx => loadX | .ldy => loadY | .sta => storeA | .stx => storeX | .sty => storeY
  | .adc => adcEffect | .sbc => sbcEffect | .cmp => cmpEffect
  | .jmp => fun u => .ok (u.setLr u.ad)
  | .inx => fun u => putX (u.x + 1) u | .iny => fun u => putY (u.y + 1) u
  | .dex => fun u => putX (u.x - 1) u | .dey => fun u => putY (u.y - 1) u
  | .tax => fun u => putX u.a u | .tay => fun u => putY u.a u
  | .txa => fun u => putA u.x u | .tya => fun u => putA u.y u
  | .clc => fun u => .ok (u.setP (withC u.p false)) | .sec => fun u => .ok (u.setP (withC u.p true))
  | .pha => fun u => .ok (u.push8 u.a) | .pla => pullA
  | .php => fun u => .ok (u.push8 (packFlags u.p u.qz u.qn)) | .plp => pullFlags
  | .nop => fun u => .ok u | .brk => leaveSecondary | .esc => leaveSecondary
  | .bpl => fun u => branchIf (!u.flagN) u | .bmi => fun u => branchIf u.flagN u
  | .bvc => fun u => branchIf (!u.flagV) u | .bvs => fun u => branchIf u.flagV u
  | .bcc => fun u => branchIf (!u.flagC) u | .bcs => fun u => branchIf u.flagC u
  | .bne => fun u => branchIf (!u.flagZ) u | .beq => fun u => branchIf u.flagZ u

/-- Every secondary instruction is a secondary step of the operation and mode its table row gives. -/
theorem exec_secondary {i : Instr} {op : Byte} {o : Operation} {m : Mode} (h : secondaryTable i = some (op, o, m))
    (s : State) : exec i s = secondaryStep op m (o.cost s.cfg) o.effect s := by
  cases i <;> simp only [secondaryTable, reduceCtorEq, Option.some.injEq, Prod.mk.injEq] at h <;>
    obtain ⟨rfl, rfl, rfl⟩ := h <;> rfl

/-- With SEL = 0x02 a secondary step is Execute: the effect on the state with SEL <- 0x01, charged. -/
theorem secondaryStep_exec {op : Byte} {m : Mode} {c : Nat} {eff : State → Except Fault State} {s : State}
    (h : s.sel = 0x02#8) : secondaryStep op m c eff s = chargeResult c (eff (s.setSel selSFetch)) := by
  simp [secondaryStep, selSExec, h]

/-- With SEL = 0x01 a secondary step is Fetch plus Decode. -/
theorem secondaryStep_fetch {op : Byte} {m : Mode} {c : Nat} {eff : State → Except Fault State} {s : State}
    (h : s.sel = 0x01#8) : secondaryStep op m c eff s = fetchDecode op m s := by
  simp [secondaryStep, selSExec, h]

theorem exec_at_execute {i : Instr} {op : Byte} {o : Operation} {m : Mode}
    (h : secondaryTable i = some (op, o, m)) {s : State} (hs : s.sel = 0x02#8) :
    exec i s = chargeResult (o.cost s.cfg) (o.effect (s.setSel selSFetch)) := by
  rw [exec_secondary h, secondaryStep_exec hs]

theorem exec_at_fetch {i : Instr} {op : Byte} {o : Operation} {m : Mode}
    (h : secondaryTable i = some (op, o, m)) {s : State} (hs : s.sel = 0x01#8) :
    exec i s = fetchDecode op m s := by
  rw [exec_secondary h, secondaryStep_fetch hs]

/-- What Execute can do: leave the control fields, PC, AC[15:8], and SEL but for a way back to the primary
interpreter. -/
structure ExecuteFrame (s t : State) : Prop where
  control : KeepsControl s t
  pc : t.pc = s.pc
  acHigh : hiByte t.ac = hiByte s.ac
  sel : t.sel = s.sel ∨ t.sel = selP

theorem Operation.effect_frame (o : Operation) {s t : State} (h : o.effect s = .ok t) : ExecuteFrame s t := by
  have mk : ∀ {u : State}, { u with
      ac := s.ac, lr := s.lr, sp := s.sp, scratch := s.scratch, sysfn := s.sysfn } = s → hiByte u.ac = hiByte s.ac → ExecuteFrame s u := by
    intro u hu ha
    exact ⟨.of_eq (by rw [← hu]), by rw [← hu], ha, .inl (by rw [← hu])⟩
  have wr : ∀ (a : Word) (v : Byte), ExecuteFrame s (s.memWrite a v) := fun a v =>
    ⟨.memWrite s a v, by simp, by simp, .inl (by simp)⟩
  have ps : ∀ (v : Byte), ExecuteFrame s (s.push8 v) := fun v =>
    ⟨.trans (.setSp s _) (.memWrite _ _ _), by simp [State.push8], by simp [State.push8], .inl (by simp [State.push8])⟩
  have out : ExecuteFrame s (s.setSel selP) := ⟨.setSel s _, rfl, rfl, .inr rfl⟩
  cases o <;>
    simp only [Operation.effect, loadA, loadX, loadY, storeA, storeX, storeY, adcEffect, sbcEffect, cmpEffect, putX,
      putY, putA, pullA, pullFlags, branchIf, leaveSecondary, State.pull8, do_ok, Except.ok.injEq, Prod.exists,
      Prod.mk.injEq] at h <;>
    first
    | (subst h; first | exact wr _ _ | exact ps _ | exact out | exact mk rfl rfl | exact mk rfl (by simp))
    | (obtain ⟨m, -, rfl⟩ := h
       first | exact mk rfl rfl | exact mk rfl (by simp) | (split_ifs <;> exact mk rfl rfl)
             | exact mk rfl (by simp [addToA]))
    | (obtain ⟨v, u, ⟨w, -, rfl, rfl⟩, rfl⟩ := h
       first | exact mk rfl rfl | exact mk rfl (by simp))

end Sys2Proof.Machine
end

