-- ==== Sys2Proof/Laws/Decoding.lean ====
section
/-! SUPPORT. The decoder row by row, the two sets of instructions, and the bytes a fetch reads. -/

namespace Sys2Proof

/-- All that operand assembly can do: take no byte, one, or two. -/
theorem OpRow.readOperand_ok {row : OpRow} {bytes rest : List Byte} {i : Instr}
    (h : row.readOperand bytes = .ok (i, rest)) :
    (row = .op0 i ∧ bytes = rest) ∨ (∃ f b, row = .op1 f ∧ i = f b ∧ bytes = b :: rest) ∨
    (∃ f lo hi, row = .op2 f ∧ i = f (mkWord hi lo) ∧ bytes = lo :: hi :: rest) := by
  unfold OpRow.readOperand at h
  split at h
  · cases h; exact .inl ⟨rfl, rfl⟩
  · cases h; exact .inr (.inl ⟨_, _, rfl, rfl, rfl⟩)
  · cases h; exact .inr (.inr ⟨_, _, _, rfl, rfl, rfl⟩)
  all_goals cases h

theorem byte_eq_of_toNat {op : Byte} {n : Nat} (h : op.toNat = n) : op = BitVec.ofNat 8 n := by
  subst h; simp

/-- What a row of a dispatch table stands for: instructions of one set, encoded as the bytes `head` and their operand
bytes, well-formed but for a SYS with a reserved operand. -/
def RowGood (head : List Byte) (isa : Isa) (row : OpRow) : Prop :=
  match row with
  | .op0 i => encode i = head ∧ i.isa = isa ∧ i.wellFormed = true
  | .op1 f => ∀ b, encode (f b) = head ++ [b] ∧ (f b).isa = isa ∧ ((f b).wellFormed = true ∨ ∃ d, f b = .sys d)
  | .op2 f => ∀ w, encode (f w) = head ++ wordBytes w ∧ (f w).isa = isa ∧ (f w).wellFormed = true

/-- The rows of 30_encoding.md R92 agree with the encoder. -/
theorem primaryRow_good {op : Byte} {row : OpRow} (h : primaryRow op = some row) : RowGood [op] .primary row := by
  unfold primaryRow at h
  split at h <;> rename_i hn <;>
    first | (cases h; done) | (cases h; rw [byte_eq_of_toNat hn]; simp [RowGood, encode, Instr.isa, Instr.wellFormed])

/-- The rows of 30_encoding.md R94 agree with the encoder. -/
theorem extendedRow_good {op : Byte} {row : OpRow} (h : extendedRow op = some row) : RowGood [pfxOpcode, op] .primary row := by
  unfold extendedRow at h
  split at h <;> rename_i hn <;>
    first | (cases h; done) | (cases h; rw [byte_eq_of_toNat hn]; simp [RowGood, encode, Instr.isa, Instr.wellFormed])

/-- The rows of 30_encoding.md R100 agree with the encoder. -/
theorem secondaryRow_good {op : Byte} {row : OpRow} (h : secondaryRow op = some row) : RowGood [op] .secondary row := by
  unfold secondaryRow at h
  split at h <;> rename_i hn <;>
    first | (cases h; done) | (cases h; rw [byte_eq_of_toNat hn]; simp [RowGood, encode, Instr.isa, Instr.wellFormed])

@[simp] theorem wordBytes_mkWord (hi lo : Byte) : wordBytes (mkWord hi lo) = [lo, hi] := by simp [wordBytes]

/-- What operand assembly gives on a row: the bytes read are the rest of the instruction's encoding. -/
theorem readOperand_good {head bytes rest : List Byte} {isa : Isa} {row : OpRow} {i : Instr} (g : RowGood head isa row)
    (h : row.readOperand bytes = .ok (i, rest)) :
    head ++ bytes = encode i ++ rest ∧ i.isa = isa ∧ (i.wellFormed = true ∨ ∃ d, i = .sys d) := by
  rcases OpRow.readOperand_ok h with ⟨rfl, rfl⟩ | ⟨f, b, rfl, rfl, rfl⟩ | ⟨f, lo, hi, rfl, rfl, rfl⟩
  · obtain ⟨a, b, c⟩ := g; exact ⟨by rw [a], b, .inl c⟩
  · obtain ⟨a, b, c⟩ := g b; exact ⟨by rw [a]; simp, b, c⟩
  · obtain ⟨a, b, c⟩ := g (mkWord hi lo); exact ⟨by rw [a, wordBytes_mkWord]; simp, b, .inl c⟩

/-- The decoder's table leaves out exactly the opcodes outside 30_encoding.md R100. -/
theorem secondaryRow_none_iff (op : Byte) : secondaryRow op = none ↔ implementedOpcodes.contains op = false := by
  revert op
  have : ∀ k : Fin 256, 
      (secondaryRow (BitVec.ofNat 8 k)).isNone = !implementedOpcodes.contains (BitVec.ofNat 8 k) := by decide +kernel
  intro op
  have h := this ⟨op.toNat, op.isLt⟩
  simp only [BitVec.ofNat_toNat, BitVec.setWidth_eq] at h
  cases e : secondaryRow op <;> simp_all

end Sys2Proof

namespace Sys2Proof.Machine

/-- An instruction is of the primary set exactly when the secondary table has no row for it. -/
theorem isa_primary_iff (i : Instr) : i.isa = .primary ↔ secondaryTable i = none := by
  cases i <;> simp [Instr.isa, secondaryTable]

/-- An encoding has at least one byte and at most four, three in the secondary set (30_encoding.md R90, R93, R99). -/
theorem encode_length_bounds (i : Instr) :
    1 ≤ (encode i).length ∧ (encode i).length ≤ 4 ∧ (i.isa = .secondary → (encode i).length ≤ 3) := by
  cases i <;> simp [encode, wordBytes, Instr.isa]

theorem readRun_cons {s : State} {n : Nat} {a : Word} {b : Byte} (h : s.memRead a = some b) :
    s.readRun (n + 1) a = b :: s.readRun n (a + 1) := by simp [State.readRun, h]

theorem readRun_nil {s : State} {n : Nat} {a : Word} (h : s.memRead a = none) : s.readRun n a = [] := by
  cases n <;> simp [State.readRun, h]

/-- A run of reads over bytes that stand in memory begins with these bytes. -/
theorem readRun_bytes {s : State} : ∀ (l : List Byte) (n : Nat) (a : Word), BytesAt s a l → l.length ≤ n →
    s.readRun n a = l ++ s.readRun (n - l.length) (a + BitVec.ofNat 16 l.length)
  | [], n, a, _, _ => by simp
  | b :: l, 0, a, _, h => by simp at h
  | b :: l, n + 1, a, h, hl => by
    rw [readRun_cons h.1, readRun_bytes l n _ h.2 (by simpa using hl)]
    have : a + 1 + BitVec.ofNat 16 l.length = a + BitVec.ofNat 16 (l.length + 1) := by
      rw [BitVec.ofNat_add, BitVec.add_assoc, BitVec.add_comm 1]; rfl
    rw [this, List.length_cons, Nat.add_sub_add_right]; rfl

theorem readRun_two (s : State) (a : Word) :
    s.readRun 2 a = [] ∨ (∃ b, s.readRun 2 a = [b]) ∨ ∃ b c, s.readRun 2 a = [b, c] := by
  simp only [State.readRun]
  cases s.memRead a <;> simp
  cases s.memRead (a + 1) <;> simp

end Sys2Proof.Machine
end

