-- ==== Sys2Proof/Laws/Machine.lean ====
section
/-! SUPPORT. What the instructions and the machine can do as a whole: the primary instructions through one frame, Fetch
plus Decode, the native routines, the end of a step, the fetch of a step. -/

namespace Sys2Proof.Machine

/-! ### The primary set -/

/-- What the effect of a primary instruction other than SYS and RTI can do: leave the control fields and SEL; and, where
the instruction stores nothing, memory and both window registers. -/
structure PrimaryFrame (i : Instr) (s t : State) : Prop where
  control : KeepsControl s t
  sel : t.sel = s.sel
  quiet : storing i = false → t.mem = s.mem ∧ t.sysfn = s.sysfn ∧ t.scratch = s.scratch

/-- Every primary instruction but SYS and RTI is one primary step with a cost of the tables COST_P and COST_X. -/
theorem exec_primary {i : Instr} (h : secondaryTable i = none) (hs : ∀ d, i ≠ .sys d) (hr : i ≠ .rti) (s : State) :
    ∃ len c eff, exec i s = primaryStep len c eff s ∧ c ∈ s.cfg.costP.toList ++ s.cfg.costX.toList ∧
      ∀ u v, eff u = .ok v → PrimaryFrame i u v := by
  have mk : ∀ {u v : State}, { v with pc := u.pc, ac := u.ac, lr := u.lr, sp := u.sp } = u → PrimaryFrame i u v := by
    intro u v hu
    exact ⟨.of_eq (by rw [← hu]), by rw [← hu], fun _ => by rw [← hu]; exact ⟨rfl, rfl, rfl⟩⟩
  have br : ∀ {u : State} (b : Bool) (w : Word), PrimaryFrame i u (branchTo b w u) := by
    intro u b w
    unfold branchTo
    split_ifs <;> exact mk rfl
  cases i <;> first
    | exact absurd rfl (hs _)
    | exact absurd rfl hr
    | (exfalso; simp only [secondaryTable, reduceCtorEq] at h; done)
    | (simp only [exec, execLdi, execLdwi, execLd, execLdw, execSt, execStw, execAddw, execSubw, execLup, execBra,
         execBeq, execBne, execBlt, execBge, execBgt, execBle, execCall, execRet, execPush, execPop, execNegw, execAddi,
         execSubi, execBral, execBnel, execBeql]
       refine ⟨_, _, _, rfl, by simp [PrimaryCosts.toList, ExtendedCosts.toList], fun u v e => ?_⟩
       simp only [do_ok, Except.ok.injEq, State.pull16, Prod.exists, Prod.mk.injEq] at e
       first
       | (subst e; first | exact mk rfl | exact br _ _)
       | (subst e; exact ⟨.memWrite _ _ _, by simp, fun q => by simp [storing, secondaryTable] at q⟩)
       | (subst e
          exact ⟨.trans (.memWrite _ _ _) (.memWrite _ _ _), by simp [State.zpWrite2],
            fun q => by simp [storing, secondaryTable] at q⟩)
       | (subst e
          exact ⟨.trans (.setSp _ _) (.trans (.memWrite _ _ _) (.memWrite _ _ _)), by simp [State.push16],
            fun q => by simp [storing, secondaryTable] at q⟩)
       | (obtain ⟨w, -, rfl⟩ := e; exact mk rfl)
       | (obtain ⟨w, x, ⟨lo, -, hi, -, -, rfl⟩, rfl⟩ := e; exact mk rfl))

/-! ### Fetch plus Decode -/

/-- What an admitted Fetch plus Decode leaves alone: everything but LR, SCRATCH, SEL and T. -/
structure DecodeFrame (s u : State) : Prop where
  control : KeepsControl s u
  pc : u.pc = s.pc
  ac : u.ac = s.ac
  sp : u.sp = s.sp
  mem : u.mem = s.mem
  sysfn : u.sysfn = s.sysfn
  sel : u.sel = selSExec

theorem latchAddress_frame (s : State) (a : Option Word) :
    { latchAddress s a with scratch := s.scratch } = s := by
  cases a <;> rfl

/-- Fetch plus Decode defers and changes nothing, or runs to its end and is charged the cost of its class. -/
theorem fetchDecode_next {op : Byte} {m : Mode} {s t : State} (h : fetchDecode op m s = .next t) :
    (decodeDeferred s m.cls = true ∧ t = s.defer .decode) ∨
      (decodeDeferred s m.cls = false ∧ ∃ u, DecodeFrame s u ∧ t = u.charge (decodeCost s.cfg m.cls)) := by
  unfold fetchDecode at h
  split_ifs at h with hd
  · exact .inl ⟨hd, by simpa [eq_comm] using h⟩
  · obtain ⟨u, hu, rfl⟩ := chargeResult_next.mp h
    obtain ⟨a, -, hu⟩ := do_ok.mp hu
    refine .inr ⟨by simpa using hd, u, ?_, rfl⟩
    cases hu
    have q := latchAddress_frame
      (((s.setLr (s.lr + 1)).setIr op).setLr (((s.setLr (s.lr + 1)).setIr op).lr + m.operandBytes)) a
    have r : ∀ {α : Type} (f : State → α), _ := fun f => congrArg f q
    refine ⟨.of_eq ?_, r State.pc, r State.ac, r State.sp, r State.mem, r State.sysfn, rfl⟩
    cases a <;> rfl

/-! ### The native routines -/

/-- What a routine in a SYS slot leaves alone (43_sys.md R215): all but PC, AC, LR, SP, TMP, SCRATCH, SYSFN and memory,
and SEL but for handing over to one of the two entries of the secondary interpreter; TMP too, for the reference
routines. -/
structure RoutineFrame (slot : Slot) (s v : State) : Prop where
  cfg : v.cfg = s.cfg
  ticks : v.t = s.t
  ipc : v.ipc = s.ipc
  iac : v.iac = s.iac
  isel : v.isel = s.isel
  insvc : v.insvc = s.insvc
  run : v.run = s.run
  sliceN : v.sliceN = s.sliceN
  pending : v.pending = s.pending
  answer : v.answer = s.answer
  memory : MemoryGood s → MemoryGood v
  sel : v.sel = s.sel ∨ v.sel = selSFetch ∨ v.sel = selSExec
  tmp : (∀ id, slot.routine ≠ .native id) → v.tmp = s.tmp

theorem KeepsControl.routine {slot : Slot} {s v : State} (h : KeepsControl s v)
    (hs : v.sel = s.sel ∨ v.sel = selSFetch) : RoutineFrame slot s v :=
  ⟨h.cfg, h.ticks, h.ipc, h.iac, h.isel, h.insvc, h.run, h.sliceN, h.pending, h.answer, h.memory, hs.imp_right .inl,
    fun _ => h.tmp⟩

/-- A routine may make an access that keeps SEL first. -/
theorem RoutineFrame.after {slot : Slot} {s u v : State} (k : KeepsControl s u) (hs : u.sel = s.sel)
    (f : RoutineFrame slot u v) : RoutineFrame slot s v :=
  ⟨f.cfg.trans k.cfg, f.ticks.trans k.ticks, f.ipc.trans k.ipc, f.iac.trans k.iac, f.isel.trans k.isel,
    f.insvc.trans k.insvc, f.run.trans k.run, f.sliceN.trans k.sliceN, f.pending.trans k.pending,
    f.answer.trans k.answer, f.memory ∘ k.memory, hs ▸ f.sel, fun q => (f.tmp q).trans k.tmp⟩

/-- A configured native routine keeps to the contract, whatever it does (43_sys.md R215). -/
theorem runNative_frame {slot : Slot} {id : Nat} (hid : slot.routine = .native id) {p : NativeProgram} {s v : State}
    {r : Int} (h : runNative p s = .ok (v, r)) : RoutineFrame slot s v := by
  induction p generalizing s with
  | read addr next ih =>
    obtain ⟨b, -, h⟩ := do_ok.mp h
    exact ih b h
  | write addr b next ih => exact .after (.memWrite s addr b) (by simp) (ih h)
  | writeScratch k b next ih => exact .after (.setScratch s (s.scratch.set k b)) rfl (ih h)
  | writeSysfn w next ih => exact .after (u := s.setSysfn w) (.of_eq rfl) rfl (ih h)
  | done n =>
    cases h
    refine ⟨rfl, rfl, rfl, rfl, rfl, rfl, rfl, rfl, rfl, rfl, fun g => ⟨g.canonical, g.noWindow⟩, ?_,
      fun q => absurd hid (q id)⟩
    show handOverSel s.sel n.handOver = s.sel ∨ handOverSel s.sel n.handOver = selSFetch ∨
      handOverSel s.sel n.handOver = selSExec
    rcases n.handOver with - | (- | -)
    · exact .inl rfl
    · exact .inr (.inl rfl)
    · exact .inr (.inr rfl)

theorem copyBytes_frame {n : Nat} {src dst : Word} {s u : State} (h : copyBytes n src dst s = .ok u) :
    KeepsControl s u ∧ { u with mem := s.mem, sysfn := s.sysfn, scratch := s.scratch } = s := by
  induction n generalizing src dst s with
  | zero => cases h; exact ⟨.refl _, rfl⟩
  | succ n ih =>
    obtain ⟨v, -, h⟩ := do_ok.mp h
    obtain ⟨k, q⟩ := ih h
    refine ⟨.trans (.memWrite s dst v) k, ?_⟩
    have r := congrArg (fun x : State => { x with mem := s.mem, sysfn := s.sysfn, scratch := s.scratch }) q
    exact r.trans (State.memWrite_registers s dst v)

theorem copyRoutine_frame {s v : State} (h : copyRoutine s = .ok v) :
    KeepsControl s v ∧ v.sel = s.sel := by
  obtain ⟨u, hu, h⟩ := do_ok.mp h
  obtain ⟨k, q⟩ := copyBytes_frame hu
  have r : ∀ {α : Type} (f : State → α), _ := fun f => congrArg f q
  have hsel : u.sel = s.sel := r State.sel
  cases h
  split_ifs
  · exact ⟨k.trans (.setScratch u _), hsel⟩
  · exact ⟨k.trans (.trans (.setScratch u _) (.setPc _ _)), hsel⟩

/-- Every routine keeps to the contract (43_sys.md R215). -/
theorem runRoutine_frame {slot : Slot} {s v : State} {r : Int} (h : runRoutine slot s = .ok (v, r)) :
    RoutineFrame slot s v := by
  unfold runRoutine at h
  split at h
  · cases h; exact (KeepsControl.refl s).routine (.inl rfl)
  · cases h; exact (KeepsControl.trans (.setLr s _) (.setSel _ _)).routine (.inr rfl)
  · cases h
    unfold multiplyRoutine
    dsimp only
    split_ifs <;> first
      | exact (KeepsControl.of_eq rfl).routine (.inl rfl)
  · cases hc : copyRoutine s with
    | error f => rw [hc] at h; cases h
    | ok u =>
      rw [hc] at h
      cases h
      exact (copyRoutine_frame hc).1.routine (.inl (copyRoutine_frame hc).2)
  · rename_i id hid
    exact runNative_frame hid h

/-! ### SYS and RTI -/

theorem findSlot_mem {stride : Nat} {f : Word} {base : Nat} {l : List Slot} {slot : Slot}
    (h : findSlot stride f base l = some slot) : slot ∈ l := by
  induction l generalizing base with
  | nil => cases h
  | cons a l ih =>
    unfold findSlot at h
    split_ifs at h
    · cases h; exact List.mem_cons_self
    · exact List.mem_cons_of_mem _ (ih h)

/-- SYS defers and changes nothing, or runs the routine of its slot and is charged what the routine reports. -/
theorem execSys_next {d : Byte} {s t : State} (h : execSys d s = .next t) :
    signed8 d ≤ 0 ∧ ((s.t + signed8 d < 0 ∧ t = s.defer .sys) ∨
      (0 ≤ s.t + signed8 d ∧ ∃ slot ∈ s.cfg.slots, slotOf s.cfg s.sysfn = some slot ∧ (slot.extra : Int) ≤ -signed8 d ∧
        ∃ v r, runRoutine slot (s.setPc (s.pc + 2)) = .ok (v, r) ∧ 1 ≤ -r ∧ -r ≤ s.cfg.maxtP - signed8 d ∧
          t = v.setT (s.t + r))) := by
  unfold execSys at h
  split_ifs at h with hl ha
  · refine ⟨of_decide_eq_true hl, .inl ⟨ha, by simpa [eq_comm] using h⟩⟩
  · refine ⟨of_decide_eq_true hl, .inr ⟨by omega, ?_⟩⟩
    unfold callSlot at h
    simp only [State.setPc_cfg, State.setPc_sysfn] at h
    split at h
    · cases h
    · rename_i slot hslot
      split_ifs at h with he
      split at h
      · cases h
      · rename_i v r hr
        have fr := runRoutine_frame hr
        split_ifs at h with hb
        rw [fr.cfg] at hb
        rw [fr.ticks] at h
        exact ⟨slot, findSlot_mem hslot, hslot, by omega, v, r, hr, hb.1, hb.2, by simpa [eq_comm] using h⟩

/-- RTI defers and changes nothing, or restores the context in a handler. -/
theorem execRti_next {s t : State} (h : execRti s = .next t) :
    (s.t - s.cfg.rtiExtra < 0 ∧ t = s.defer .rti) ∨
      (0 ≤ s.t - s.cfg.rtiExtra ∧ s.insvc = true ∧
        t = ((s.setPc (s.pc + 1)).returnFromInterrupt).charge s.cfg.costRti) := by
  unfold execRti at h
  split_ifs at h with ha
  · exact .inl ⟨ha, by simpa [eq_comm] using h⟩
  · obtain ⟨u, hu, rfl⟩ := primaryStep_next.mp h
    cases hi : s.insvc
    · simp [hi] at hu
    · simp only [State.setPc_insvc, hi, if_true, Except.ok.injEq] at hu
      exact .inr ⟨by omega, rfl, by rw [hu]⟩

/-! ### The end of a step, and its fetch -/

/-- The end of a step hands a deferral on, ends the slice, or goes on (40_scheduler_dispatch.md R137). -/
theorem finishStep_next {s t : State} {o : Host.Outcome State Fault Refusal} (h : finishStep s o = .next t) :
    ∃ u, o = .next u ∧ ((u.run = .idle ∧ t = u) ∨
      (u.run = .running ∧ ∃ j, interp u.sel = some j ∧
        ((some j ≠ interp s.sel ∧ t = u.exitSlice .switched) ∨
         (some j = interp s.sel ∧ u.t < 0 ∧ t = u.exitSlice .exhausted) ∨
         (some j = interp s.sel ∧ 0 ≤ u.t ∧ t = u)))) := by
  cases o with
  | fault f => cases h
  | refused f => cases h
  | next u =>
    refine ⟨u, rfl, ?_⟩
    simp only [finishStep] at h
    split_ifs at h with hr
    · exact .inl ⟨hr, by simpa [eq_comm] using h⟩
    · have hrun : u.run = .running := by cases hu : u.run <;> simp_all
      unfold closeStep at h
      split at h
      · cases h
      · rename_i j hj
        refine .inr ⟨hrun, j, hj, ?_⟩
        split_ifs at h with h1 h2
        · exact .inl ⟨h1, by simpa [eq_comm] using h⟩
        · exact .inr (.inl ⟨by simpa using h1, h2, by simpa [eq_comm] using h⟩)
        · exact .inr (.inr ⟨by simpa using h1, by omega, by simpa [eq_comm] using h⟩)

theorem step_idle {s : State} (h : s.run = .idle) : step s = hostStep s := by simp [step, h]
theorem step_running {s : State} (h : s.run = .running) : step s = dispatchStep s := by simp [step, h]

/-- A step of a running slice that goes on ran an instruction, or deferred an expensive decode. -/
theorem step_running_next {s t : State} (hr : s.run = .running) (h : step s = .next t) :
    (∃ i, fetch s = .instr i ∧ finishStep s (exec i s) = .next t) ∨ t = s.defer .decode := by
  rw [step_running hr] at h
  unfold dispatchStep at h
  split at h
  · rename_i i hi; exact .inl ⟨i, hi, h⟩
  · right
    obtain ⟨u, hu, h⟩ := finishStep_next h
    cases hu
    rcases h with ⟨-, rfl⟩ | ⟨h, -⟩
    · rfl
    · simp at h
  · cases h

/-! ### Everything an instruction, a step and a command can do -/

/-- What a secondary instruction can do: defer, end its Fetch plus Decode, or end its Execute. -/
theorem secondary_frame {i op o m} (h : secondaryTable i = some (op, o, m)) {s t : State}
    (he : exec i s = .next t) :
    (s.sel ≠ 0x02#8 ∧ decodeDeferred s m.cls = true ∧ t = s.defer .decode) ∨
    (s.sel ≠ 0x02#8 ∧ decodeDeferred s m.cls = false ∧ ∃ u, DecodeFrame s u ∧ t = u.charge (decodeCost s.cfg m.cls)) ∨
    (s.sel = 0x02#8 ∧ ∃ u, ExecuteFrame (s.setSel selSFetch) u ∧ t = u.charge (o.cost s.cfg)) := by
  by_cases hs : s.sel = 0x02#8
  · rw [exec_at_execute h hs] at he
    obtain ⟨u, hu, rfl⟩ := chargeResult_next.mp he
    exact .inr (.inr ⟨hs, u, o.effect_frame hu, rfl⟩)
  · rw [exec_secondary h] at he
    have : secondaryStep op m (o.cost s.cfg) o.effect s = fetchDecode op m s := by
      simp [secondaryStep, selSExec, hs]
    rw [this] at he
    rcases fetchDecode_next he with ⟨a, b⟩ | ⟨a, b⟩
    · exact .inl ⟨hs, a, b⟩
    · exact .inr (.inl ⟨hs, a, b⟩)

/-- SYS and RTI are the two instructions outside `exec_primary` and `secondary_frame`. -/
theorem primary_cases (i : Instr) : (∃ d, i = .sys d) ∨ i = .rti ∨ ((∀ d, i ≠ .sys d) ∧ i ≠ .rti) := by
  cases i <;> simp
/-- What every instruction that runs to its end leaves alone. -/
structure ExecResult (s t : State) : Prop where
  cfg : t.cfg = s.cfg
  ipc : t.ipc = s.ipc
  iac : t.iac = s.iac
  isel : t.isel = s.isel
  sliceN : t.sliceN = s.sliceN
  pending : t.pending = s.pending
  answer : t.answer = s.answer
  run : t.run = s.run
  memory : MemoryGood s → MemoryGood t
  sel : t.sel = s.sel ∨ t.sel = 0x00#8 ∨ t.sel = 0x01#8 ∨ t.sel = 0x02#8 ∨ t.sel = s.isel
  tmp : ReferenceSlots s.cfg → t.tmp = s.tmp

/-- Every instruction that answers a next state defers, changing nothing, or runs to its end. -/
theorem exec_result {i : Instr} {s t : State} (he : exec i s = .next t) :
    (∃ r, t = s.defer r) ∨ ExecResult s t := by
  cases hi : secondaryTable i with
  | some x =>
    obtain ⟨op, o, m⟩ := x
    rcases secondary_frame hi he with ⟨-, -, rfl⟩ | ⟨-, -, u, f, rfl⟩ | ⟨-, u, f, rfl⟩
    · exact .inl ⟨_, rfl⟩
    · have k := f.control
      exact .inr ⟨k.cfg, k.ipc, k.iac, k.isel, k.sliceN, k.pending, k.answer, k.run, fun g => ⟨(k.memory g).1, (k.memory g).2⟩,
        .inr (.inr (.inr (.inl f.sel))), fun _ => k.tmp⟩
    · have k := KeepsControl.trans (.setSel s _) f.control
      refine .inr ⟨k.cfg, k.ipc, k.iac, k.isel, k.sliceN, k.pending, k.answer, k.run, fun g => ⟨(k.memory g).1, (k.memory g).2⟩,
        ?_, fun _ => k.tmp⟩
      rcases f.sel with h | h
      · exact .inr (.inr (.inl h))
      · exact .inr (.inl h)
  | none =>
    rcases primary_cases i with ⟨d, rfl⟩ | rfl | ⟨h1, h2⟩
    · rcases execSys_next he with ⟨-, ⟨-, rfl⟩ | ⟨-, slot, hmem, -, -, v, r, hr, -, -, rfl⟩⟩
      · exact .inl ⟨_, rfl⟩
      · have f := runRoutine_frame hr
        refine .inr ⟨f.cfg, f.ipc, f.iac, f.isel, f.sliceN, f.pending, f.answer, f.run,
          fun g => let g' := f.memory ⟨g.1, g.2⟩; ⟨g'.1, g'.2⟩, ?_, fun q => f.tmp (q slot hmem)⟩
        rcases f.sel with h | h | h
        · exact .inl h
        · exact .inr (.inr (.inl h))
        · exact .inr (.inr (.inr (.inl h)))
    · rcases execRti_next he with ⟨-, rfl⟩ | ⟨-, -, rfl⟩
      · exact .inl ⟨_, rfl⟩
      · exact .inr ⟨rfl, rfl, rfl, rfl, rfl, rfl, rfl, rfl, fun g => ⟨g.1, g.2⟩, .inr (.inr (.inr (.inr rfl))), fun _ => rfl⟩
    · obtain ⟨len, c, eff, hx, -, hf⟩ := exec_primary hi h1 h2 s
      rw [hx] at he
      obtain ⟨u, hu, rfl⟩ := primaryStep_next.mp he
      have f := hf _ _ hu
      have k := KeepsControl.trans (.setPc s _) f.control
      exact .inr ⟨k.cfg, k.ipc, k.iac, k.isel, k.sliceN, k.pending, k.answer, k.run,
        fun g => ⟨(k.memory g).1, (k.memory g).2⟩, .inl f.sel, fun _ => k.tmp⟩

/-- What a step of a running slice can do: defer, or run an instruction and end the slice or go on. -/
theorem running_result {s t : State} (hr : s.run = .running) (h : step s = .next t) :
    (∃ r, t = s.defer r) ∨ ∃ i u, fetch s = .instr i ∧ exec i s = .next u ∧ ExecResult s u ∧
      ((∃ j, interp u.sel = some j ∧ some j ≠ interp s.sel ∧ t = u.exitSlice .switched) ∨
       (interp u.sel = interp s.sel ∧ u.t < 0 ∧ t = u.exitSlice .exhausted) ∨
       (interp u.sel = interp s.sel ∧ 0 ≤ u.t ∧ t = u)) := by
  rcases step_running_next hr h with ⟨i, hi, hf⟩ | rfl
  · obtain ⟨u, hu, hc⟩ := finishStep_next hf
    rcases exec_result hu with ⟨r, rfl⟩ | f
    · rcases hc with ⟨-, rfl⟩ | ⟨h, -⟩
      · exact .inl ⟨r, rfl⟩
      · simp at h
    · rcases hc with ⟨h, -⟩ | ⟨-, j, hj, hc⟩
      · rw [f.run, hr] at h; cases h
      · refine .inr ⟨i, u, hi, hu, f, ?_⟩
        rcases hc with ⟨a, b⟩ | ⟨a, b⟩ | ⟨a, b⟩
        · exact .inl ⟨j, hj, a, b⟩
        · exact .inr (.inl ⟨hj.trans a, b⟩)
        · exact .inr (.inr ⟨hj.trans a, b⟩)
  · exact .inl ⟨_, rfl⟩

/-- What a step can do while RUN = IDLE. -/
theorem idle_cases {s t : State} (hr : s.run = .idle) (h : step s = .next t) :
    t = s ∨ ∃ c rest, s.pending = c :: rest ∧ runCommand c { s with pending := rest, answer := none } = .next t := by
  rw [step_idle hr] at h
  unfold hostStep at h
  split at h
  · cases h; exact .inl rfl
  · rename_i c rest hp; exact .inr ⟨c, rest, hp, h⟩

/-- What START_SLICE can do. -/
theorem startSlice_next {b : Budget} {s t : State} (h : startSlice b s = .next t) :
    ∃ i, interp s.sel = some i ∧ (b = .unbounded ∨ budgetLegal s.cfg i (budgetCycles s.cfg i b) = true) ∧
      t = { s with t := entryTicks s.cfg i (budgetCycles s.cfg i b), run := .running,
                   sliceN := (budgetCycles s.cfg i b).toNat } := by
  unfold startSlice at h
  split at h
  · cases h
  · rename_i i hi
    dsimp only at h
    split_ifs at h with hb
    exact ⟨i, hi, hb, by simpa [eq_comm] using h⟩

/-- What IRQ_CHECK can do. -/
theorem irqCheck_next {s t : State} (h : irqCheck s = .next t) :
    ∃ v, s.readWord s.cfg.irqVectorAddr = .ok v ∧
    ((v ≠ 0 ∧ s.insvc = false ∧ t = (s.enterInterrupt v).setAnswer (some (.irqChecked true))) ∨
      ((v = 0 ∨ s.insvc = true) ∧ t = s.setAnswer (some (.irqChecked false)))) := by
  unfold irqCheck at h
  split at h
  · cases h
  · rename_i v hv
    refine ⟨v, hv, ?_⟩
    split_ifs at h with hc
    · exact .inl ⟨hc.1, hc.2, by simpa [eq_comm] using h⟩
    · refine .inr ⟨?_, by simpa [eq_comm] using h⟩
      by_cases q : v = 0
      · exact .inl q
      · right
        cases e : s.insvc
        · exact absurd ⟨q, e⟩ hc
        · rfl

/-- What a host command can do. -/
theorem command_cases {c : Command} {s t : State} (h : runCommand c s = .next t) :
    t = resetCommand s ∨
    (∃ v, v ≠ 0 ∧ s.insvc = false ∧ t = (s.enterInterrupt v).setAnswer (some (.irqChecked true))) ∨
    (∃ a, t = s.setAnswer a) ∨
    (∃ i b, interp s.sel = some i ∧ (b = .unbounded ∨ budgetLegal s.cfg i (budgetCycles s.cfg i b) = true) ∧
      t = { s with t := entryTicks s.cfg i (budgetCycles s.cfg i b), run := .running,
                   sliceN := (budgetCycles s.cfg i b).toNat }) ∨
    (∃ a v, t = s.memWrite a v) := by
  cases c with
  | reset => cases h; exact .inl rfl
  | irqCheck =>
    obtain ⟨v, -, ⟨a, b, rfl⟩ | ⟨-, rfl⟩⟩ := irqCheck_next h
    · exact .inr (.inl ⟨v, a, b, rfl⟩)
    · exact .inr (.inr (.inl ⟨_, rfl⟩))
  | startSlice b =>
    obtain ⟨i, hi, hb, rfl⟩ := startSlice_next h
    exact .inr (.inr (.inr (.inl ⟨i, b, hi, hb, rfl⟩)))
  | hostRead a =>
    have h' : hostRead a s = .next t := h
    unfold hostRead at h'
    split at h'
    · cases h'; exact .inr (.inr (.inl ⟨_, rfl⟩))
    · cases h'
  | hostWrite a v => cases h; exact .inr (.inr (.inr (.inr ⟨a, v, rfl⟩)))

end Sys2Proof.Machine
end

