-- ==== Sys2Proof/Laws/Operations.lean ====
section
/-! SUPPORT. The shared operations over memory, the stack, the flags and the latch, each with one lemma that says all it
can do. -/

namespace Sys2Proof.Machine

/-! ### Zero-page addresses -/

theorem zextWord_eq_mkWord (b : Byte) : zextWord b = mkWord 0x00#8 b := by
  have h : ∀ n : Nat, n < 256 → zextWord (BitVec.ofNat 8 n) = mkWord 0x00#8 (BitVec.ofNat 8 n) := by decide +kernel
  simpa using h b.toNat b.isLt

@[simp] theorem loByte_zextWord (b : Byte) : loByte (zextWord b) = b := by rw [zextWord_eq_mkWord]; simp

@[simp] theorem hiByte_zextWord (b : Byte) : hiByte (zextWord b) = 0x00#8 := by rw [zextWord_eq_mkWord]; simp

/-! ### Reads of two bytes -/

/-- Two reads in a row: both bytes, or the fault of a byte that holds no value. -/
theorem readTwo_cases (s : State) (a b : Word) :
    (∃ lo hi, s.memRead a = some lo ∧ s.memRead b = some hi ∧ s.readByte a = .ok lo ∧ s.readByte b = .ok hi) ∨
      ((s.memRead a = none ∨ s.memRead b = none) ∧
        ∀ {α : Type} (f : Byte → Byte → Except Fault α),
          (s.readByte a >>= fun lo => s.readByte b >>= fun hi => f lo hi) = .error .readUnwritten) := by
  rcases State.readByte_cases s a with ⟨lo, h1, e1⟩ | ⟨h1, e1⟩
  · rcases State.readByte_cases s b with ⟨hi, h2, e2⟩ | ⟨h2, e2⟩
    · exact .inl ⟨lo, hi, h1, h2, e1, e2⟩
    · exact .inr ⟨.inr h2, fun f => by rw [e1, e2]; rfl⟩
  · exact .inr ⟨.inl h1, fun f => by rw [e1]; rfl⟩

/-- All that a zero-page word read can do (20_memory.md R65). -/
theorem State.zpRead2_cases (s : State) (q : Byte) :
    (∃ lo hi, s.memRead (mkWord 0x00#8 q) = some lo ∧ s.memRead (mkWord 0x00#8 (q + 1)) = some hi ∧
      s.zpRead2 q = .ok (mkWord hi lo)) ∨
    ((s.memRead (mkWord 0x00#8 q) = none ∨ s.memRead (mkWord 0x00#8 (q + 1)) = none) ∧
      s.zpRead2 q = .error .readUnwritten) := by
  rw [← zextWord_eq_mkWord, ← zextWord_eq_mkWord]
  rcases readTwo_cases s (zextWord q) (zextWord (q + 1)) with ⟨lo, hi, h1, h2, e1, e2⟩ | ⟨h, e⟩
  · exact .inl ⟨lo, hi, h1, h2, by unfold State.zpRead2; rw [e1, e2]; rfl⟩
  · exact .inr ⟨h, e _⟩

/-- All that a word read can do (20_memory.md R64). -/
theorem State.readWord_cases (s : State) (a : Word) :
    (∃ lo hi, s.memRead a = some lo ∧ s.memRead (a + 1) = some hi ∧ s.readWord a = .ok (mkWord hi lo)) ∨
    ((s.memRead a = none ∨ s.memRead (a + 1) = none) ∧ s.readWord a = .error .readUnwritten) := by
  rcases readTwo_cases s a (a + 1) with ⟨lo, hi, h1, h2, e1, e2⟩ | ⟨h, e⟩
  · exact .inl ⟨lo, hi, h1, h2, by unfold State.readWord; rw [e1, e2]; rfl⟩
  · exact .inr ⟨h, e _⟩

/-! ### The stack (20_memory.md R67) -/

/-- All that a pull of one byte can do. -/
theorem State.pull8_cases (s : State) :
    (∃ v, s.memRead (mkWord 0x00#8 s.sp) = some v ∧ s.pull8 = .ok (v, s.setSp (s.sp + 1))) ∨
    (s.memRead (mkWord 0x00#8 s.sp) = none ∧ s.pull8 = .error .readUnwritten) := by
  rcases State.readByte_cases s (mkWord 0x00#8 s.sp) with ⟨v, h, e⟩ | ⟨h, e⟩
  · exact .inl ⟨v, h, by unfold State.pull8; rw [show State.stackAddr s.sp = mkWord 0x00#8 s.sp from rfl, e]; rfl⟩
  · exact .inr ⟨h, by unfold State.pull8; rw [show State.stackAddr s.sp = mkWord 0x00#8 s.sp from rfl, e]; rfl⟩

/-- All that a pull of a word can do. -/
theorem State.pull16_cases (s : State) :
    (∃ lo hi, s.memRead (mkWord 0x00#8 s.sp) = some lo ∧ s.memRead (mkWord 0x00#8 (s.sp + 1)) = some hi ∧
      s.pull16 = .ok (mkWord hi lo, s.setSp (s.sp + 2))) ∨
    ((s.memRead (mkWord 0x00#8 s.sp) = none ∨ s.memRead (mkWord 0x00#8 (s.sp + 1)) = none) ∧
      s.pull16 = .error .readUnwritten) := by
  rcases readTwo_cases s (State.stackAddr s.sp) (State.stackAddr (s.sp + 1)) with ⟨lo, hi, h1, h2, e1, e2⟩ | ⟨h, e⟩
  · exact .inl ⟨lo, hi, h1, h2, by unfold State.pull16; rw [e1, e2]; rfl⟩
  · exact .inr ⟨h, e _⟩

/-! ### Flags (44_secondary.md R255) -/

theorem bitByte_eq_if (b : Bool) : bitByte b = if b then 1 else 0 := by cases b <;> rfl

/-- Bit 7 of a byte is its sign (00_scope.md R8). -/
theorem getLsbD_seven (x : Byte) : x.getLsbD 7 = decide (128 ≤ x.toNat) := by
  have h : ∀ n : Nat, n < 256 → (BitVec.ofNat 8 n).getLsbD 7 = decide (128 ≤ (BitVec.ofNat 8 n).toNat) := by
    decide +kernel
  simpa using h x.toNat x.isLt

/-! ### Fetch plus Decode -/

/-- What Decode has latched when an address is found: LR past the instruction, IR, AD, SEL = 0x02, the cost. -/
theorem latched_state (s : State) (l1 l2 addr : Word) (op : Byte) (c : Nat) :
    ((latchAddress (((s.setLr l1).setIr op).setLr l2) (some addr)).setSel selSExec).charge c =
      { s with lr := l2, sel := 0x02#8, t := s.t - c,
               scratch := { s.scratch with b0 := loByte addr, b1 := hiByte addr, b2 := op } } := rfl

/-- Fetch plus Decode, admitted, with its effective address found. -/
theorem fetchDecode_of_address {op : Byte} {m : Mode} {s : State} {addr : Option Word}
    (hd : decodeDeferred s m.cls = false)
    (ha : effectiveAddress ((s.setLr (s.lr + 1)).setIr op) m = .ok addr) :
    fetchDecode op m s = .next (((latchAddress (((s.setLr (s.lr + 1)).setIr op).setLr
      (s.lr + 1 + m.operandBytes)) addr).setSel selSExec).charge (decodeCost s.cfg m.cls)) := by
  unfold fetchDecode
  rw [if_neg (by simp [hd])]
  dsimp only
  rw [ha]; rfl

/-! ### The native port (43_sys.md R214, R215) -/

theorem runNative_read_some {addr : Word} {next : Byte → NativeProgram} {s : State} {v : Byte}
    (h : s.memRead addr = some v) : runNative (.read addr next) s = runNative (next v) s := by
  simp [runNative, State.readByte_of_some h]

theorem runNative_read_none {addr : Word} {next : Byte → NativeProgram} {s : State} (h : s.memRead addr = none) :
    runNative (.read addr next) s = .error .readUnwritten := by
  simp [runNative, State.readByte_of_none h]

@[simp] theorem runNative_write (addr : Word) (v : Byte) (next : NativeProgram) (s : State) :
    runNative (.write addr v next) s = runNative next (s.memWrite addr v) := rfl

@[simp] theorem runNative_writeScratch (k : Fin 8) (v : Byte) (next : NativeProgram) (s : State) :
    runNative (.writeScratch k v next) s = runNative next (s.setScratch (s.scratch.set k v)) := rfl

@[simp] theorem runNative_writeSysfn (v : Word) (next : NativeProgram) (s : State) :
    runNative (.writeSysfn v next) s = runNative next (s.setSysfn v) := rfl

@[simp] theorem runNative_done (r : NativeResult) (s : State) :
    runNative (.done r) s = .ok (nativeReturn r s, r.report) := rfl

/-! ### The copy (43_sys.md R222) -/

/-- The copy of n + 1 bytes is the copy of n, then one more read and write. -/
theorem copyBytes_succ (n : Nat) (src dst : Word) (s : State) :
    copyBytes (n + 1) src dst s = (copyBytes n src dst s >>= fun w =>
      w.readByte (src + BitVec.ofNat 16 n) >>= fun v => .ok (w.memWrite (dst + BitVec.ofNat 16 n) v)) := by
  have shift : ∀ (w : Word) (i : Nat), w + 1 + BitVec.ofNat 16 i = w + BitVec.ofNat 16 (i + 1) := by
    intro w i
    rw [BitVec.ofNat_add, BitVec.add_assoc, BitVec.add_comm 1]
    rfl
  induction n generalizing src dst s with
  | zero => simp [copyBytes]
  | succ n ih =>
    rw [copyBytes]
    conv_rhs => rw [copyBytes]
    rcases State.readByte_cases s src with ⟨v, -, e⟩ | ⟨-, e⟩
    · simp only [e, do_ok_eq]
      rw [ih, shift, shift]
    · simp only [e, do_error_eq]

/-- All that one more byte of the copy can do. -/
theorem copyBytes_succ_cases (n : Nat) (src dst : Word) (s : State) :
    (∃ w v, copyBytes n src dst s = .ok w ∧ w.memRead (src + BitVec.ofNat 16 n) = some v ∧
      copyBytes (n + 1) src dst s = .ok (w.memWrite (dst + BitVec.ofNat 16 n) v)) ∨
    (∃ w, copyBytes n src dst s = .ok w ∧ w.memRead (src + BitVec.ofNat 16 n) = none ∧
      copyBytes (n + 1) src dst s = .error .readUnwritten) ∨
    (∃ f, copyBytes n src dst s = .error f ∧ copyBytes (n + 1) src dst s = .error f) := by
  rw [copyBytes_succ]
  cases h : copyBytes n src dst s with
  | error f => exact .inr (.inr ⟨f, rfl, rfl⟩)
  | ok w =>
    rcases State.readByte_cases w (src + BitVec.ofNat 16 n) with ⟨v, hv, e⟩ | ⟨hv, e⟩
    · exact .inl ⟨w, v, rfl, hv, by simp only [do_ok_eq, e]⟩
    · exact .inr (.inl ⟨w, rfl, hv, by simp only [do_ok_eq, e, do_error_eq]⟩)

/-- The copy stops only on a byte that holds no value. -/
theorem copyBytes_error {n : Nat} {src dst : Word} {s : State} {f : Fault} (h : copyBytes n src dst s = .error f) :
    f = .readUnwritten := by
  induction n generalizing f with
  | zero => cases h
  | succ n ih =>
    rcases copyBytes_succ_cases n src dst s with ⟨w, v, -, -, e⟩ | ⟨w, -, -, e⟩ | ⟨g, hg, e⟩
    · rw [e] at h; cases h
    · rw [e] at h; cases h; rfl
    · rw [e] at h; cases h; exact ih hg

end Sys2Proof.Machine
end

