-- ==== Sys2Proof/Laws/PerInstr.lean ====
section
/-! SUPPORT. Statements made instruction by instruction: the number of bytes of each encoding, as the formats of
30_encoding.md R90, R93 and R99 give it. -/

namespace Sys2Proof.Laws

/-- The length of an instruction in bytes by its set and format: the opcode byte, the operand bytes of the mode in the
secondary set, the formats P0 to P2 and X0 to X2 in the primary set. -/
def EncodedLength.bytes (i : Instr) : Nat :=
  match Machine.secondaryTable i with
  | some (_, _, m) => 1 + m.operandBytes.toNat
  | none =>
    match i with
    | .ret => 1
    | .push => 1
    | .pop => 1
    | .rti => 1
    | .ldwi _ => 3
    | .bra _ => 3
    | .beq _ => 3
    | .bne _ => 3
    | .blt _ => 3
    | .bge _ => 3
    | .bgt _ => 3
    | .ble _ => 3
    | .call _ => 3
    | .addi _ => 3
    | .subi _ => 3
    | .bral _ => 4
    | .bnel _ => 4
    | .beql _ => 4
    | _ => 2

/-- The encoder writes as many bytes as the instruction's format has. -/
def EncodedLength.Statement (i : Instr) : Prop := (encode i).length = EncodedLength.bytes i

theorem EncodedLength.ldi (d : Byte) : EncodedLength.Statement (.ldi d) := rfl
theorem EncodedLength.ldwi (w : Word) : EncodedLength.Statement (.ldwi w) := rfl
theorem EncodedLength.ld (a : Byte) : EncodedLength.Statement (.ld a) := rfl
theorem EncodedLength.ldw (a : Byte) : EncodedLength.Statement (.ldw a) := rfl
theorem EncodedLength.st (a : Byte) : EncodedLength.Statement (.st a) := rfl
theorem EncodedLength.stw (a : Byte) : EncodedLength.Statement (.stw a) := rfl
theorem EncodedLength.addw (a : Byte) : EncodedLength.Statement (.addw a) := rfl
theorem EncodedLength.subw (a : Byte) : EncodedLength.Statement (.subw a) := rfl
theorem EncodedLength.bra (target : Word) : EncodedLength.Statement (.bra target) := rfl
theorem EncodedLength.beq (target : Word) : EncodedLength.Statement (.beq target) := rfl
theorem EncodedLength.bne (target : Word) : EncodedLength.Statement (.bne target) := rfl
theorem EncodedLength.blt (target : Word) : EncodedLength.Statement (.blt target) := rfl
theorem EncodedLength.bge (target : Word) : EncodedLength.Statement (.bge target) := rfl
theorem EncodedLength.bgt (target : Word) : EncodedLength.Statement (.bgt target) := rfl
theorem EncodedLength.ble (target : Word) : EncodedLength.Statement (.ble target) := rfl
theorem EncodedLength.call (target : Word) : EncodedLength.Statement (.call target) := rfl
theorem EncodedLength.ret : EncodedLength.Statement .ret := rfl
theorem EncodedLength.push : EncodedLength.Statement .push := rfl
theorem EncodedLength.pop : EncodedLength.Statement .pop := rfl
theorem EncodedLength.lup (d : Byte) : EncodedLength.Statement (.lup d) := rfl
theorem EncodedLength.sys (d : Byte) : EncodedLength.Statement (.sys d) := rfl
theorem EncodedLength.rti : EncodedLength.Statement .rti := rfl
theorem EncodedLength.negw : EncodedLength.Statement .negw := rfl
theorem EncodedLength.addi (b : Byte) : EncodedLength.Statement (.addi b) := rfl
theorem EncodedLength.subi (b : Byte) : EncodedLength.Statement (.subi b) := rfl
theorem EncodedLength.bral (rel : Word) : EncodedLength.Statement (.bral rel) := rfl
theorem EncodedLength.bnel (rel : Word) : EncodedLength.Statement (.bnel rel) := rfl
theorem EncodedLength.beql (rel : Word) : EncodedLength.Statement (.beql rel) := rfl
theorem EncodedLength.ldaImm (b : Byte) : EncodedLength.Statement (.ldaImm b) := rfl
theorem EncodedLength.ldaZp (b : Byte) : EncodedLength.Statement (.ldaZp b) := rfl
theorem EncodedLength.ldaZpX (b : Byte) : EncodedLength.Statement (.ldaZpX b) := rfl
theorem EncodedLength.ldaAbs (a : Word) : EncodedLength.Statement (.ldaAbs a) := rfl
theorem EncodedLength.ldaAbsX (a : Word) : EncodedLength.Statement (.ldaAbsX a) := rfl
theorem EncodedLength.ldaAbsY (a : Word) : EncodedLength.Statement (.ldaAbsY a) := rfl
theorem EncodedLength.ldaIndX (b : Byte) : EncodedLength.Statement (.ldaIndX b) := rfl
theorem EncodedLength.ldaIndY (b : Byte) : EncodedLength.Statement (.ldaIndY b) := rfl
theorem EncodedLength.ldxImm (b : Byte) : EncodedLength.Statement (.ldxImm b) := rfl
theorem EncodedLength.ldxZp (b : Byte) : EncodedLength.Statement (.ldxZp b) := rfl
theorem EncodedLength.ldxAbs (a : Word) : EncodedLength.Statement (.ldxAbs a) := rfl
theorem EncodedLength.ldyImm (b : Byte) : EncodedLength.Statement (.ldyImm b) := rfl
theorem EncodedLength.ldyZp (b : Byte) : EncodedLength.Statement (.ldyZp b) := rfl
theorem EncodedLength.ldyAbs (a : Word) : EncodedLength.Statement (.ldyAbs a) := rfl
theorem EncodedLength.staZp (b : Byte) : EncodedLength.Statement (.staZp b) := rfl
theorem EncodedLength.staZpX (b : Byte) : EncodedLength.Statement (.staZpX b) := rfl
theorem EncodedLength.staAbs (a : Word) : EncodedLength.Statement (.staAbs a) := rfl
theorem EncodedLength.staAbsX (a : Word) : EncodedLength.Statement (.staAbsX a) := rfl
theorem EncodedLength.staAbsY (a : Word) : EncodedLength.Statement (.staAbsY a) := rfl
theorem EncodedLength.staIndX (b : Byte) : EncodedLength.Statement (.staIndX b) := rfl
theorem EncodedLength.staIndY (b : Byte) : EncodedLength.Statement (.staIndY b) := rfl
theorem EncodedLength.stxZp (b : Byte) : EncodedLength.Statement (.stxZp b) := rfl
theorem EncodedLength.stxAbs (a : Word) : EncodedLength.Statement (.stxAbs a) := rfl
theorem EncodedLength.styZp (b : Byte) : EncodedLength.Statement (.styZp b) := rfl
theorem EncodedLength.styAbs (a : Word) : EncodedLength.Statement (.styAbs a) := rfl
theorem EncodedLength.adcImm (b : Byte) : EncodedLength.Statement (.adcImm b) := rfl
theorem EncodedLength.adcZp (b : Byte) : EncodedLength.Statement (.adcZp b) := rfl
theorem EncodedLength.adcZpX (b : Byte) : EncodedLength.Statement (.adcZpX b) := rfl
theorem EncodedLength.adcAbs (a : Word) : EncodedLength.Statement (.adcAbs a) := rfl
theorem EncodedLength.adcAbsX (a : Word) : EncodedLength.Statement (.adcAbsX a) := rfl
theorem EncodedLength.adcAbsY (a : Word) : EncodedLength.Statement (.adcAbsY a) := rfl
theorem EncodedLength.adcIndX (b : Byte) : EncodedLength.Statement (.adcIndX b) := rfl
theorem EncodedLength.adcIndY (b : Byte) : EncodedLength.Statement (.adcIndY b) := rfl
theorem EncodedLength.sbcImm (b : Byte) : EncodedLength.Statement (.sbcImm b) := rfl
theorem EncodedLength.sbcZp (b : Byte) : EncodedLength.Statement (.sbcZp b) := rfl
theorem EncodedLength.sbcZpX (b : Byte) : EncodedLength.Statement (.sbcZpX b) := rfl
theorem EncodedLength.sbcAbs (a : Word) : EncodedLength.Statement (.sbcAbs a) := rfl
theorem EncodedLength.sbcAbsX (a : Word) : EncodedLength.Statement (.sbcAbsX a) := rfl
theorem EncodedLength.sbcAbsY (a : Word) : EncodedLength.Statement (.sbcAbsY a) := rfl
theorem EncodedLength.sbcIndX (b : Byte) : EncodedLength.Statement (.sbcIndX b) := rfl
theorem EncodedLength.sbcIndY (b : Byte) : EncodedLength.Statement (.sbcIndY b) := rfl
theorem EncodedLength.cmpImm (b : Byte) : EncodedLength.Statement (.cmpImm b) := rfl
theorem EncodedLength.cmpZp (b : Byte) : EncodedLength.Statement (.cmpZp b) := rfl
theorem EncodedLength.cmpAbs (a : Word) : EncodedLength.Statement (.cmpAbs a) := rfl
theorem EncodedLength.jmpAbs (a : Word) : EncodedLength.Statement (.jmpAbs a) := rfl
theorem EncodedLength.inx : EncodedLength.Statement .inx := rfl
theorem EncodedLength.iny : EncodedLength.Statement .iny := rfl
theorem EncodedLength.dex : EncodedLength.Statement .dex := rfl
theorem EncodedLength.dey : EncodedLength.Statement .dey := rfl
theorem EncodedLength.tax : EncodedLength.Statement .tax := rfl
theorem EncodedLength.tay : EncodedLength.Statement .tay := rfl
theorem EncodedLength.txa : EncodedLength.Statement .txa := rfl
theorem EncodedLength.tya : EncodedLength.Statement .tya := rfl
theorem EncodedLength.clc : EncodedLength.Statement .clc := rfl
theorem EncodedLength.sec : EncodedLength.Statement .sec := rfl
theorem EncodedLength.pha : EncodedLength.Statement .pha := rfl
theorem EncodedLength.pla : EncodedLength.Statement .pla := rfl
theorem EncodedLength.php : EncodedLength.Statement .php := rfl
theorem EncodedLength.plp : EncodedLength.Statement .plp := rfl
theorem EncodedLength.nop : EncodedLength.Statement .nop := rfl
theorem EncodedLength.brk : EncodedLength.Statement .brk := rfl
theorem EncodedLength.bplRel (b : Byte) : EncodedLength.Statement (.bplRel b) := rfl
theorem EncodedLength.bmiRel (b : Byte) : EncodedLength.Statement (.bmiRel b) := rfl
theorem EncodedLength.bvcRel (b : Byte) : EncodedLength.Statement (.bvcRel b) := rfl
theorem EncodedLength.bvsRel (b : Byte) : EncodedLength.Statement (.bvsRel b) := rfl
theorem EncodedLength.bccRel (b : Byte) : EncodedLength.Statement (.bccRel b) := rfl
theorem EncodedLength.bcsRel (b : Byte) : EncodedLength.Statement (.bcsRel b) := rfl
theorem EncodedLength.bneRel (b : Byte) : EncodedLength.Statement (.bneRel b) := rfl
theorem EncodedLength.beqRel (b : Byte) : EncodedLength.Statement (.beqRel b) := rfl
theorem EncodedLength.esc (op : Byte) : EncodedLength.Statement (.esc op) := rfl

end Sys2Proof.Laws
end

