-- ==== Sys2Proof/Tests/Slice0.lean ====
section
/-! SUPPORT. The model's own tests. Expected results are the spec's: the vectors of 95_test_vectors.md (named V-…) and
the examples of the rules, none of them from a run of the model. Then, for each statement of Obligations.lean that has
hypotheses, a state and operands that meet them. -/

namespace Sys2Proof.Tests

open Sys2Proof Sys2Proof.Machine

/-! ### States for one step -/

/-- A slice in progress at reset's PC with T = 30. -/
def running : State := { State.reset with run := .running, t := 30, sliceN := 148 }

/-- Bytes stored from an address on. -/
def put (s : State) (addr : Word) (bytes : List Byte) : State := storeRun bytes addr s

/-- A primary instruction at PC. -/
def prim (bytes : List Byte) (s : State := running) : State := put s s.pc bytes

/-- A secondary instruction at LR = 0x0300, with A as given, AC[15:8] = 0x03 and T = 40. -/
def sec (bytes : List Byte) (a : Byte := 0x00#8) (s : State := running) : State :=
  put { s with sel := 0x01#8, lr := 0x0300#16, ac := mkWord 0x03#8 a, t := 40 } 0x0300#16 bytes

/-- SCRATCH with P, QZ, QN, X and Y. -/
def regs (p qz qn x y : Byte) : State := { running with scratch := ⟨0x00#8, 0x00#8, 0x00#8, p, qz, qn, x, y⟩ }

/-- The same after Decode, Execute still to come. -/
def latched (op : Byte) (addr : Word) (s : State) : State :=
  { s with sel := 0x02#8, lr := 0x0302#16,
           scratch := { s.scratch with b0 := loByte addr, b1 := hiByte addr, b2 := op } }

/-- At a SYS: T, PC, SYSFN, SCRATCH. -/
def atSys (t : Int) (pc sysfn : Word) (x : Scratch := State.reset.scratch) : State :=
  { running with t := t, pc := pc, sysfn := sysfn, scratch := x }

def one (s : State) : Option State := match step s with | .next t => some t | .fault _ => none | .refused _ => none
def two (s : State) : Option State := (one s).bind one
def stop (s : State) : Option Fault := match step s with | .next _ => none | .fault f => some f | .refused _ => none

/-! ### WellFormed, with a term that each check refuses (30_encoding.md R95, R102, R107) -/

theorem test_wellFormed_sys : Instr.wellFormed (.sys 0x00#8) = true ∧ Instr.wellFormed (.sys 0x80#8) = true ∧
    Instr.wellFormed (.sys 0xFF#8) = true ∧ Instr.wellFormed (.sys 0x01#8) = false ∧
    Instr.wellFormed (.sys 0x7F#8) = false := by decide

theorem test_wellFormed_esc : Instr.wellFormed (.esc 0x02#8) = true ∧ Instr.wellFormed (.esc 0xFF#8) = true ∧
    Instr.wellFormed (.esc 0xA9#8) = false ∧ Instr.wellFormed (.esc 0x00#8) = false := by decide

theorem test_wellFormed_others : Instr.wellFormed (.ldi 0xFF#8) = true ∧ Instr.wellFormed .brk = true := by decide

/-! ### Decoding, one word for every constructor, from the encoding tables (30_encoding.md R92, R94, R100, R102) -/

theorem test_decode_primary_1 : ∀ p ∈ ([
    ([0x01#8, 0x05#8], .ldi 0x05#8),
    ([0x02#8, 0x34#8, 0x12#8], .ldwi 0x1234#16),
    ([0x03#8, 0x40#8], .ld 0x40#8),
    ([0x04#8, 0x30#8], .ldw 0x30#8),
    ([0x05#8, 0x31#8], .st 0x31#8),
    ([0x06#8, 0x22#8], .stw 0x22#8),
    ([0x07#8, 0x30#8], .addw 0x30#8),
    ([0x08#8, 0x30#8], .subw 0x30#8),
    ([0x09#8, 0x0C#8, 0x02#8], .bra 0x020C#16),
    ([0x0A#8, 0x0C#8, 0x02#8], .beq 0x020C#16),
    ([0x0B#8, 0x0C#8, 0x02#8], .bne 0x020C#16),
    ([0x0C#8, 0x0C#8, 0x02#8], .blt 0x020C#16),
    ([0x0D#8, 0x0C#8, 0x02#8], .bge 0x020C#16),
    ([0x0E#8, 0x0C#8, 0x02#8], .bgt 0x020C#16)] : List (List Byte × Instr)),
    (decode .primary p.1).toOption = some (p.2, []) := by decide

theorem test_decode_primary_2 : ∀ p ∈ ([
    ([0x0F#8, 0x0C#8, 0x02#8], .ble 0x020C#16),
    ([0x10#8, 0x0C#8, 0x02#8], .call 0x020C#16),
    ([0x11#8], .ret),
    ([0x12#8], .push),
    ([0x13#8], .pop),
    ([0x14#8, 0x04#8], .lup 0x04#8),
    ([0x15#8, 0xFA#8], .sys 0xFA#8),
    ([0x16#8], .rti),
    ([0x17#8, 0x01#8], .negw),
    ([0x17#8, 0x02#8, 0x01#8], .addi 0x01#8),
    ([0x17#8, 0x03#8, 0xFE#8], .subi 0xFE#8),
    ([0x17#8, 0x04#8, 0xFC#8, 0xFF#8], .bral 0xFFFC#16),
    ([0x17#8, 0x05#8, 0x10#8, 0x00#8], .bnel 0x0010#16),
    ([0x17#8, 0x06#8, 0x02#8, 0x00#8], .beql 0x0002#16)] : List (List Byte × Instr)),
    (decode .primary p.1).toOption = some (p.2, []) := by decide

theorem test_decode_secondary_1 : ∀ p ∈ ([
    ([0xA9#8, 0x3E#8], .ldaImm 0x3E#8),
    ([0xA5#8, 0x3E#8], .ldaZp 0x3E#8),
    ([0xB5#8, 0x3E#8], .ldaZpX 0x3E#8),
    ([0xAD#8, 0x34#8, 0x12#8], .ldaAbs 0x1234#16),
    ([0xBD#8, 0x34#8, 0x12#8], .ldaAbsX 0x1234#16),
    ([0xB9#8, 0x34#8, 0x12#8], .ldaAbsY 0x1234#16),
    ([0xA1#8, 0x3E#8], .ldaIndX 0x3E#8),
    ([0xB1#8, 0x3E#8], .ldaIndY 0x3E#8),
    ([0xA2#8, 0x3E#8], .ldxImm 0x3E#8),
    ([0xA6#8, 0x3E#8], .ldxZp 0x3E#8),
    ([0xAE#8, 0x34#8, 0x12#8], .ldxAbs 0x1234#16),
    ([0xA0#8, 0x3E#8], .ldyImm 0x3E#8),
    ([0xA4#8, 0x3E#8], .ldyZp 0x3E#8),
    ([0xAC#8, 0x34#8, 0x12#8], .ldyAbs 0x1234#16)] : List (List Byte × Instr)),
    (decode .secondary p.1).toOption = some (p.2, []) := by decide

theorem test_decode_secondary_2 : ∀ p ∈ ([
    ([0x85#8, 0x3E#8], .staZp 0x3E#8),
    ([0x95#8, 0x3E#8], .staZpX 0x3E#8),
    ([0x8D#8, 0x34#8, 0x12#8], .staAbs 0x1234#16),
    ([0x9D#8, 0x34#8, 0x12#8], .staAbsX 0x1234#16),
    ([0x99#8, 0x34#8, 0x12#8], .staAbsY 0x1234#16),
    ([0x81#8, 0x3E#8], .staIndX 0x3E#8),
    ([0x91#8, 0x3E#8], .staIndY 0x3E#8),
    ([0x86#8, 0x3E#8], .stxZp 0x3E#8),
    ([0x8E#8, 0x34#8, 0x12#8], .stxAbs 0x1234#16),
    ([0x84#8, 0x3E#8], .styZp 0x3E#8),
    ([0x8C#8, 0x34#8, 0x12#8], .styAbs 0x1234#16),
    ([0x69#8, 0x3E#8], .adcImm 0x3E#8),
    ([0x65#8, 0x3E#8], .adcZp 0x3E#8),
    ([0x75#8, 0x3E#8], .adcZpX 0x3E#8)] : List (List Byte × Instr)),
    (decode .secondary p.1).toOption = some (p.2, []) := by decide

theorem test_decode_secondary_3 : ∀ p ∈ ([
    ([0x6D#8, 0x34#8, 0x12#8], .adcAbs 0x1234#16),
    ([0x7D#8, 0x34#8, 0x12#8], .adcAbsX 0x1234#16),
    ([0x79#8, 0x34#8, 0x12#8], .adcAbsY 0x1234#16),
    ([0x61#8, 0x3E#8], .adcIndX 0x3E#8),
    ([0x71#8, 0x3E#8], .adcIndY 0x3E#8),
    ([0xE9#8, 0x3E#8], .sbcImm 0x3E#8),
    ([0xE5#8, 0x3E#8], .sbcZp 0x3E#8),
    ([0xF5#8, 0x3E#8], .sbcZpX 0x3E#8),
    ([0xED#8, 0x34#8, 0x12#8], .sbcAbs 0x1234#16),
    ([0xFD#8, 0x34#8, 0x12#8], .sbcAbsX 0x1234#16),
    ([0xF9#8, 0x34#8, 0x12#8], .sbcAbsY 0x1234#16),
    ([0xE1#8, 0x3E#8], .sbcIndX 0x3E#8),
    ([0xF1#8, 0x3E#8], .sbcIndY 0x3E#8),
    ([0xC9#8, 0x3E#8], .cmpImm 0x3E#8)] : List (List Byte × Instr)),
    (decode .secondary p.1).toOption = some (p.2, []) := by decide

theorem test_decode_secondary_4 : ∀ p ∈ ([
    ([0xC5#8, 0x3E#8], .cmpZp 0x3E#8),
    ([0xCD#8, 0x34#8, 0x12#8], .cmpAbs 0x1234#16),
    ([0x4C#8, 0x34#8, 0x12#8], .jmpAbs 0x1234#16)] : List (List Byte × Instr)),
    (decode .secondary p.1).toOption = some (p.2, []) := by decide

theorem test_decode_register_1 : ∀ p ∈ ([
    ([0xE8#8], .inx),
    ([0xC8#8], .iny),
    ([0xCA#8], .dex),
    ([0x88#8], .dey),
    ([0xAA#8], .tax),
    ([0xA8#8], .tay),
    ([0x8A#8], .txa),
    ([0x98#8], .tya),
    ([0x18#8], .clc),
    ([0x38#8], .sec),
    ([0x48#8], .pha),
    ([0x68#8], .pla),
    ([0x08#8], .php),
    ([0x28#8], .plp)] : List (List Byte × Instr)),
    (decode .secondary p.1).toOption = some (p.2, []) := by decide

theorem test_decode_register_2 : ∀ p ∈ ([
    ([0xEA#8], .nop),
    ([0x00#8], .brk),
    ([0x10#8, 0xFC#8], .bplRel 0xFC#8),
    ([0x30#8, 0xFC#8], .bmiRel 0xFC#8),
    ([0x50#8, 0xFC#8], .bvcRel 0xFC#8),
    ([0x70#8, 0xFC#8], .bvsRel 0xFC#8),
    ([0x90#8, 0xFC#8], .bccRel 0xFC#8),
    ([0xB0#8, 0xFC#8], .bcsRel 0xFC#8),
    ([0xD0#8, 0xFC#8], .bneRel 0xFC#8),
    ([0xF0#8, 0xFC#8], .beqRel 0xFC#8),
    ([0x6C#8], .esc 0x6C#8)] : List (List Byte × Instr)),
    (decode .secondary p.1).toOption = some (p.2, []) := by decide

theorem test_decode_reserved : (decode .primary [0x00#8, 0x00#8]).toOption = none ∧
    (decode .primary [0x18#8, 0x00#8]).toOption = none ∧ (decode .primary [0x17#8, 0x07#8]).toOption = none ∧
    (decode .primary [0x15#8, 0x01#8]).toOption = none ∧ (decode .primary []).toOption = none ∧
    (decode .primary [0x02#8, 0x34#8]).toOption = none := by decide

/-- Rows of opcode_table.json: SUBW and PHP share 0x08, CALL and BPL 0x10; an operand word is read low byte first. -/
theorem test_tableWord : decodeTableWord 16 0x3008 = some (.subw 0x30#8) ∧ decodeTableWord 8 0x08 = some .php ∧
    decodeTableWord 24 0x030010 = some (.call 0x0300#16) ∧ decodeTableWord 8 0x10 = some (.bplRel 0x00#8) ∧
    decodeTableWord 8 0x00 = some .brk ∧ decodeTableWord 32 0xFFFC0417 = some (.bral 0xFFFC#16) ∧
    decodeTableWord 8 0xAD = some (.ldaAbs 0x0000#16) := by decide

theorem test_withFetchWord : (one (State.reset.withFetchWord 16 0x0501)).map (fun t => (t.ac, t.pc)) =
      some (0x0005#16, 0x0202#16) ∧
    (one (State.reset.withFetchWord 8 0xE8)).map (fun t => (t.ir, t.lr, t.sel)) =
      some (0xE8#8, 0x0001#16, 0x02#8) := by decide

/-! ### Primary instructions (95_test_vectors.md 2.2) -/

/-- V-PRI-1. -/
theorem test_ldi : (one (prim [0x01#8, 0xFF#8] { running with ac := 0xBEEF#16 })).map (fun t => (t.ac, t.pc, t.t)) =
    some (0x00FF#16, 0x0202#16, 22) := by decide

/-- V-PRI-2. -/
theorem test_ldwi : (one (prim [0x02#8, 0x34#8, 0x12#8])).map (fun t => (t.ac, t.pc, t.t)) =
    some (0x1234#16, 0x0203#16, 20) := by decide

/-- V-PRI-3. -/
theorem test_ldwi_wrap : (one (prim [0x02#8, 0x34#8, 0x12#8] { running with pc := 0xFFFF#16 })).map (fun t => (t.ac,
      t.pc)) =
    some (0x1234#16, 0x0002#16) := by decide

/-- V-PRI-4. -/
theorem test_ld_window : (one (prim [0x03#8, 0x24#8]
      { running with scratch := ⟨0x5A#8, 0x00#8, 0x00#8, 0x00#8, 0x00#8, 0x00#8, 0x00#8, 0x00#8⟩ })).map (fun t =>
      (t.ac, t.t)) =
    some (0x005A#16, 19) := by decide

/-- The example of 41_primary.md R153. -/
theorem test_ld : (one (put (prim [0x03#8, 0x40#8]) 0x0040#16 [0x9C#8])).map (fun t => (t.ac, t.pc)) =
    some (0x009C#16, 0x0202#16) := by decide

/-- V-PRI-5. -/
theorem test_ldw_wrap : (one (put (put (prim [0x04#8, 0xFF#8]) 0x00FF#16 [0xCD#8]) 0x0000#16 [0xAB#8])).map
      (fun t => (t.ac, t.t)) =
    some (0xABCD#16, 20) := by decide

/-- V-PRI-6. -/
theorem test_st : (one (prim [0x05#8, 0x31#8] { running with ac := 0x1234#16 })).map (fun t => (t.memRead 0x0031#16,
      t.memRead 0x0032#16, t.ac, t.t)) =
    some (some 0x34#8, none, 0x1234#16, 22) := by decide

/-- V-PRI-7. -/
theorem test_stw_window : (one (prim [0x06#8, 0x22#8] { running with ac := 0xE020#16 })).map (fun t => (t.sysfn,
      t.mem.length, t.t)) =
    some (0xE020#16, 2, 20) := by decide

/-- V-PRI-8. -/
theorem test_stw_wrap : (one (prim [0x06#8, 0xFF#8] { running with ac := 0xA1B2#16 })).map (fun t =>
      (t.memRead 0x00FF#16, t.memRead 0x0000#16)) =
    some (some 0xB2#8, some 0xA1#8) := by decide

/-- V-PRI-9. -/
theorem test_addw : (one (put (prim [0x07#8, 0x30#8] { running with ac := 0x00FF#16 }) 0x0030#16 [0x01#8,
      0x00#8])).map (fun t => (t.ac, t.t)) =
    some (0x0100#16, 16) := by decide

/-- V-PRI-10. -/
theorem test_addw_wrap : (one (put (prim [0x07#8, 0x30#8] { running with ac := 0xFFFF#16 }) 0x0030#16 [0x01#8,
      0x00#8])).map (fun t => t.ac) =
    some 0x0000#16 := by decide

/-- V-PRI-12. -/
theorem test_subw : (one (put (prim [0x08#8, 0x30#8] { running with ac := 0x0100#16 }) 0x0030#16 [0x01#8,
      0x00#8])).map (fun t => (t.ac, t.t)) =
    some (0x00FF#16, 16) := by decide

/-- V-PRI-13. -/
theorem test_subw_borrow : (one (put (prim [0x08#8, 0x30#8]) 0x0030#16 [0x01#8, 0x00#8])).map (fun t => t.ac) =
    some 0xFFFF#16 := by decide

/-- V-PRI-15. -/
theorem test_bra : (one (prim [0x09#8, 0x1B#8, 0x02#8] { running with pc := 0x021B#16 })).map (fun t => (t.pc, t.t)) =
    some (0x021B#16, 23) := by decide

/-- The column of the branch table of 95_test_vectors.md 2.2. -/
theorem test_beq : ([0x0000#16, 0x0001#16, 0x0100#16, 0x7FFF#16, 0x8000#16, 0xFFFF#16] : List Word).map
      (fun v => (one (prim [0x0A#8, 0x00#8, 0x04#8] { running with pc := 0x0300#16, ac := v })).map (·.pc)) =
    [some 0x0400#16, some 0x0303#16, some 0x0303#16, some 0x0303#16, some 0x0303#16, some 0x0303#16] := by decide

/-- The column of the branch table of 95_test_vectors.md 2.2. -/
theorem test_bne : ([0x0000#16, 0x0001#16, 0x0100#16, 0x7FFF#16, 0x8000#16, 0xFFFF#16] : List Word).map
      (fun v => (one (prim [0x0B#8, 0x00#8, 0x04#8] { running with pc := 0x0300#16, ac := v })).map (·.pc)) =
    [some 0x0303#16, some 0x0400#16, some 0x0400#16, some 0x0400#16, some 0x0400#16, some 0x0400#16] := by decide

/-- The column of the branch table of 95_test_vectors.md 2.2. -/
theorem test_blt : ([0x0000#16, 0x0001#16, 0x0100#16, 0x7FFF#16, 0x8000#16, 0xFFFF#16] : List Word).map
      (fun v => (one (prim [0x0C#8, 0x00#8, 0x04#8] { running with pc := 0x0300#16, ac := v })).map (·.pc)) =
    [some 0x0303#16, some 0x0303#16, some 0x0303#16, some 0x0303#16, some 0x0400#16, some 0x0400#16] := by decide

/-- The column of the branch table of 95_test_vectors.md 2.2. -/
theorem test_bge : ([0x0000#16, 0x0001#16, 0x0100#16, 0x7FFF#16, 0x8000#16, 0xFFFF#16] : List Word).map
      (fun v => (one (prim [0x0D#8, 0x00#8, 0x04#8] { running with pc := 0x0300#16, ac := v })).map (·.pc)) =
    [some 0x0400#16, some 0x0400#16, some 0x0400#16, some 0x0400#16, some 0x0303#16, some 0x0303#16] := by decide

/-- The column of the branch table of 95_test_vectors.md 2.2. -/
theorem test_bgt : ([0x0000#16, 0x0001#16, 0x0100#16, 0x7FFF#16, 0x8000#16, 0xFFFF#16] : List Word).map
      (fun v => (one (prim [0x0E#8, 0x00#8, 0x04#8] { running with pc := 0x0300#16, ac := v })).map (·.pc)) =
    [some 0x0303#16, some 0x0400#16, some 0x0400#16, some 0x0400#16, some 0x0303#16, some 0x0303#16] := by decide

/-- The column of the branch table of 95_test_vectors.md 2.2. -/
theorem test_ble : ([0x0000#16, 0x0001#16, 0x0100#16, 0x7FFF#16, 0x8000#16, 0xFFFF#16] : List Word).map
      (fun v => (one (prim [0x0F#8, 0x00#8, 0x04#8] { running with pc := 0x0300#16, ac := v })).map (·.pc)) =
    [some 0x0400#16, some 0x0303#16, some 0x0303#16, some 0x0303#16, some 0x0400#16, some 0x0400#16] := by decide

/-- V-PRI-16. -/
theorem test_call : (one (prim [0x10#8, 0x00#8, 0x03#8] { running with pc := 0x0210#16 })).map (fun t => (t.lr,
      t.pc, t.sp, t.t)) =
    some (0x0213#16, 0x0300#16, 0x00#8, 17) := by decide

/-- V-PRI-17, V-SCH-10: the lookahead byte holds no value. -/
theorem test_ret : (one (prim [0x11#8] { running with lr := 0x0213#16 })).map (fun t => (t.pc, t.lr, t.t)) =
    some (0x0213#16, 0x0213#16, 22) := by decide

/-- V-PRI-18. -/
theorem test_push : (one (prim [0x12#8] { running with lr := 0x0213#16 })).map (fun t => (t.sp, t.memRead 0x00FE#16,
      t.memRead 0x00FF#16, t.pc, t.t)) =
    some (0xFE#8, some 0x13#8, some 0x02#8, 0x0201#16, 17) := by decide

/-- V-PRI-19. -/
theorem test_push_wrap : (one (prim [0x12#8] { running with lr := 0xA1B2#16, sp := 0x01#8 })).map (fun t => (t.sp,
      t.memRead 0x00FF#16, t.memRead 0x0000#16)) =
    some (0xFF#8, some 0xB2#8, some 0xA1#8) := by decide

/-- V-PRI-20. -/
theorem test_pop : (one (put (prim [0x13#8] { running with sp := 0xFE#8 }) 0x00FE#16 [0x13#8, 0x02#8])).map
      (fun t => (t.lr, t.sp, t.t)) =
    some (0x0213#16, 0x00#8, 17) := by decide

/-- V-PRI-21. -/
theorem test_pop_wrap : (one (put (put (prim [0x13#8] { running with sp := 0xFF#8 }) 0x00FF#16 [0x78#8]) 0x0000#16
      [0x56#8])).map (fun t => (t.lr, t.sp)) =
    some (0x5678#16, 0x01#8) := by decide

/-- V-PRI-22. -/
theorem test_lup : (one (prim [0x14#8, 0x04#8]
      { running with ac := 0x1230#16, cfg := { Config.default with ros := [(0x1234, 0x5A#8)] } })).map (fun t =>
      (t.ac, t.t)) =
    some (0x005A#16, 17) := by decide

/-- V-PRI-23. -/
theorem test_lup_wrap : (one (prim [0x14#8, 0x04#8]
      { running with ac := 0xFFFF#16, cfg := { Config.default with ros := [(0x0003, 0x77#8)] } })).map
      (fun t => t.ac) =
    some 0x0077#16 := by decide

/-- V-PRI-26. -/
theorem test_illegal_primary : stop (prim [0x18#8, 0x00#8]) = some .illegalPrimaryOpcode := by decide

/-- V-SCH-11. -/
theorem test_lookahead_operand : stop (prim [0x01#8]) = some .readUnwritten := by decide

/-! ### Extended page (95_test_vectors.md 2.3) -/

/-- V-EXT-1. -/
theorem test_negw : (one (prim [0x17#8, 0x01#8] { running with ac := 0x0001#16 })).map (fun t => (t.ac, t.pc, t.t)) =
    some (0xFFFF#16, 0x0202#16, 18) := by decide

/-- V-EXT-2. -/
theorem test_negw_least : (one (prim [0x17#8, 0x01#8] { running with ac := 0x8000#16 })).map (fun t => t.ac) =
    some 0x8000#16 := by decide

/-- V-EXT-3. -/
theorem test_addi : (one (prim [0x17#8, 0x02#8, 0x01#8] { running with ac := 0x00FF#16 })).map (fun t => (t.ac,
      t.pc, t.t)) =
    some (0x0100#16, 0x0203#16, 16) := by decide

/-- V-EXT-4. -/
theorem test_addi_zero_extended : (one (prim [0x17#8, 0x02#8, 0xFF#8] { running with ac := 0xFFFF#16 })).map
      (fun t => t.ac) =
    some 0x00FE#16 := by decide

/-- V-EXT-5. -/
theorem test_subi : (one (prim [0x17#8, 0x03#8, 0x01#8] { running with ac := 0x0100#16 })).map (fun t => (t.ac,
      t.t)) =
    some (0x00FF#16, 16) := by decide

/-- V-EXT-6. -/
theorem test_subi_borrow : (one (prim [0x17#8, 0x03#8, 0x01#8])).map (fun t => t.ac) =
    some 0xFFFF#16 := by decide

/-- V-EXT-7. -/
theorem test_bral_back : (one (prim [0x17#8, 0x04#8, 0xFC#8, 0xFF#8] { running with pc := 0x0300#16 })).map
      (fun t => (t.pc, t.t)) =
    some (0x0300#16, 16) := by decide

/-- V-EXT-8. -/
theorem test_bral_forward : (one (prim [0x17#8, 0x04#8, 0x00#8, 0x01#8] { running with pc := 0x0300#16 })).map
      (fun t => t.pc) =
    some 0x0404#16 := by decide

/-- V-EXT-9. -/
theorem test_bnel_taken : (one (prim [0x17#8, 0x05#8, 0x10#8, 0x00#8]
      { running with pc := 0x0300#16, ac := 0x0001#16 })).map (fun t => (t.pc, t.t)) =
    some (0x0314#16, 16) := by decide

/-- V-EXT-9. -/
theorem test_bnel_not_taken : (one (prim [0x17#8, 0x05#8, 0x10#8, 0x00#8] { running with pc := 0x0300#16 })).map
      (fun t => (t.pc, t.t)) =
    some (0x0304#16, 16) := by decide

/-- V-EXT-10. -/
theorem test_beql_straddling : (one (prim [0x17#8, 0x06#8, 0x02#8, 0x00#8] { running with pc := 0xFFFE#16 })).map
      (fun t => t.pc) =
    some 0x0004#16 := by decide

/-- V-EXT-11. -/
theorem test_beql_not_taken : (one (prim [0x17#8, 0x06#8, 0x10#8, 0x00#8]
      { running with pc := 0x0300#16, ac := 0x0100#16 })).map (fun t => t.pc) =
    some 0x0304#16 := by decide

/-- V-EXT-12. -/
theorem test_illegal_extended : stop (prim [0x17#8, 0x07#8]) = some .illegalExtendedOpcode := by decide

/-! ### SYS (95_test_vectors.md 2.4) -/

/-- V-SYS-2, V-SYS-5. -/
theorem test_sys_admission : (one (prim [0x15#8, 0x00#8] (atSys 0 0x0208#16 0xE000#16))).map (fun t => (t.pc, t.t,
      t.run, t.answer)) =
    some (0x020A#16, -10, .idle, some (.sliceExit .exhausted 148)) ∧
    (one (prim [0x15#8, 0xF0#8] (atSys 15 0x0208#16 0xE000#16))).map (fun t => (t.pc, t.t, t.answer)) =
    some (0x0208#16, 15, some (.sliceExit (.deferred .sys) 148)) := by decide

/-- V-SYS-6, V-SYS-8, V-SYS-12, and V-SYS-23 with a slot that reports R = -15. -/
theorem test_sys_stops : stop (prim [0x15#8, 0x01#8] (atSys 100 0x0208#16 0xE000#16)) = some .sysOperandReserved ∧
    stop (prim [0x15#8, 0x00#8] (atSys 30 0x0208#16 0xE008#16)) = some .sysfnNotASlot ∧
    stop (prim [0x15#8, 0xFB#8] (atSys 30 0x0208#16 0xE020#16)) = some .sysUnderdeclared ∧
    stop (prim [0x15#8, 0x00#8] { atSys 30 0x0208#16 0xE000#16 with cfg := { Config.default with slots := [⟨"late", 0, .placeholder, -15⟩] } }) = some .overrun := by decide

/-- V-SYS-13. -/
theorem test_sys_runSecondary : (one (prim [0x15#8, 0x00#8]
      { atSys 20 0x0208#16 0xE010#16 with ac := 0x0300#16 })).map (fun t => (t.lr, t.sel, t.pc, t.t, t.answer)) =
    some (0x0300#16, 0x01#8, 0x020A#16, 8, some (.sliceExit .switched 148)) := by decide

/-- V-SYS-14, V-SYS-16. -/
theorem test_sys_multiply : (one (prim [0x15#8, 0xFA#8]
      { atSys 6 0x0216#16 0xE020#16 ⟨0x2C#8, 0x01#8, 0x07#8, 0x00#8, 0x00#8, 0x00#8, 0x01#8, 0x00#8⟩ with ac := 0xE020#16 })).map (fun t => (t.scratch, t.pc, t.ac, t.t)) =
    some (⟨0x58#8, 0x02#8, 0x07#8, 0x00#8, 0x2C#8, 0x01#8, 0x02#8, 0x00#8⟩, 0x0216#16, 0xE020#16, -14) ∧
    (one (prim [0x15#8, 0xFA#8] (atSys 6 0x0216#16 0xE020#16 ⟨0x00#8, 0x80#8, 0x07#8, 0x00#8, 0x34#8, 0x08#8,
      0x00#8, 0x80#8⟩))).map (fun t => (t.scratch, t.pc, t.ac, t.t)) =
    some (⟨0x00#8, 0x00#8, 0x07#8, 0x00#8, 0x34#8, 0x08#8, 0x00#8, 0x00#8⟩, 0x0218#16, 0x0834#16, -14) := by decide

/-- V-SYS-18, V-SYS-22. -/
theorem test_sys_copy : (one (put (prim [0x15#8, 0xF6#8]
      { atSys 10 0x0220#16 0xE030#16 ⟨0x00#8, 0x03#8, 0x00#8, 0x04#8, 0x06#8, 0xAA#8, 0xBB#8, 0xCC#8⟩ with ac := 0x7777#16 }) 0x0300#16 [0x11#8, 0x22#8, 0x33#8, 0x44#8, 0x55#8, 0x66#8])).map (fun t => (t.scratch, t.pc, t.memRead 0x0403#16, t.memRead 0x0404#16, t.t)) =
    some (⟨0x04#8, 0x03#8, 0x04#8, 0x04#8, 0x02#8, 0xAA#8, 0xBB#8, 0xCC#8⟩, 0x0220#16, some 0x44#8, none, -14) ∧
    (one (put (prim [0x15#8, 0xF6#8] (atSys 10 0x0220#16 0xE030#16 ⟨0x00#8, 0x03#8, 0x01#8, 0x03#8, 0x04#8, 0x00#8,
      0x00#8, 0x00#8⟩)) 0x0300#16 [0x01#8, 0x02#8, 0x03#8, 0x04#8, 0x05#8])).map (fun t => (t.memRead 0x0304#16,
      t.pc)) =
    some (some 0x01#8, 0x0222#16) := by decide

/-! ### Secondary instructions, Decode then Execute (95_test_vectors.md 2.5) -/

/-- V-SEC-1. -/
theorem test_ldaImm : (two (sec [0xA9#8, 0x37#8])).map (fun t => (t.ac, t.qz, t.qn, t.lr, t.t, t.sel)) =
    some (0x0337#16, 0x37#8, 0x37#8, 0x0302#16, 25, 0x01#8) := by decide

/-- V-SEC-4. -/
theorem test_ldaZp : (two (put (sec [0xA5#8, 0x40#8]) 0x0040#16 [0x9C#8])).map (fun t => (t.ac, t.flagN, t.flagZ,
      t.t)) =
    some (0x039C#16, true, false, 22) := by decide

/-- V-SEC-5. -/
theorem test_ldaZp_window : (two (sec [0xA5#8, 0x2A#8] 0x00#8 (regs 0x00#8 0x00#8 0x00#8 0x5E#8 0x00#8))).map
      (fun t => t.ac) =
    some 0x035E#16 := by decide

/-- V-SEC-6. -/
theorem test_ldaZpX_wrap : (two (put (sec [0xB5#8, 0xF0#8] 0x00#8
      (regs 0x00#8 0x00#8 0x00#8 0x20#8 0x00#8)) 0x0010#16 [0x42#8])).map (fun t => (t.ac, t.ad)) =
    some (0x0342#16, 0x0010#16) := by decide

/-- V-SEC-7. -/
theorem test_ldaAbs : (two (put (sec [0xAD#8, 0x00#8, 0x04#8]) 0x0400#16 [0x7E#8])).map (fun t => (t.ac, t.lr, t.t)) =
    some (0x037E#16, 0x0303#16, 12) := by decide

/-- V-SEC-14. -/
theorem test_ldaAbs_deferred : (one ({ sec [0xAD#8, 0x00#8, 0x04#8] with t := 5 })).map (fun t => (t.lr, t.sel, t.t,
      t.scratch, t.answer)) =
    some (0x0300#16, 0x01#8, 5, ⟨0x00#8, 0x00#8, 0x00#8, 0x00#8, 0x00#8, 0x00#8, 0x00#8, 0x00#8⟩, some (.sliceExit
      (.deferred .decode) 148)) := by decide

/-- V-SEC-8. -/
theorem test_ldaAbsX_cross : (two (put (sec [0xBD#8, 0xFF#8, 0x04#8] 0x00#8
      (regs 0x00#8 0x00#8 0x00#8 0x02#8 0x00#8)) 0x0501#16 [0x81#8])).map (fun t => (t.ac, t.ad, t.flagN)) =
    some (0x0381#16, 0x0501#16, true) := by decide

/-- V-SEC-9. -/
theorem test_ldaAbsY_wrap : (two (put (sec [0xB9#8, 0xFF#8, 0xFF#8] 0x00#8
      (regs 0x00#8 0x00#8 0x00#8 0x00#8 0x02#8)) 0x0001#16 [0x33#8])).map (fun t => (t.ac, t.ad)) =
    some (0x0333#16, 0x0001#16) := by decide

/-- V-SEC-10. -/
theorem test_ldaIndX : (two (put (put (sec [0xA1#8, 0x3E#8] 0x00#8
      (regs 0x00#8 0x00#8 0x00#8 0x02#8 0x00#8)) 0x0040#16 [0x00#8, 0x04#8]) 0x0400#16 [0x7E#8])).map (fun t =>
      (t.ac, t.ad, t.lr)) =
    some (0x037E#16, 0x0400#16, 0x0302#16) := by decide

/-- V-SEC-11. -/
theorem test_ldaIndX_wrap : (two (put (put (put (sec [0xA1#8, 0xFF#8]) 0x00FF#16 [0x34#8]) 0x0000#16
      [0x12#8]) 0x1234#16 [0x99#8])).map (fun t => (t.ac, t.ad)) =
    some (0x0399#16, 0x1234#16) := by decide

/-- V-SEC-12. -/
theorem test_ldaIndY : (two (put (put (sec [0xB1#8, 0x40#8] 0x00#8
      (regs 0x00#8 0x00#8 0x00#8 0x00#8 0x02#8)) 0x0040#16 [0x00#8, 0x04#8]) 0x0402#16 [0x11#8])).map (fun t =>
      (t.ac, t.ad)) =
    some (0x0311#16, 0x0402#16) := by decide

/-- V-SEC-12b. -/
theorem test_ldaIndY_carry : (two (put (put (put (sec [0xB1#8, 0xFF#8] 0x00#8
      (regs 0x00#8 0x00#8 0x00#8 0x00#8 0x01#8)) 0x00FF#16 [0xFF#8]) 0x0000#16 [0x12#8]) 0x1300#16 [0x21#8])).map
      (fun t => (t.ac, t.ad)) =
    some (0x0321#16, 0x1300#16) := by decide

/-- V-SEC-16. -/
theorem test_ldxImm : (two (sec [0xA2#8, 0x02#8])).map (fun t => (t.x, t.qz, t.qn, t.ac)) =
    some (0x02#8, 0x02#8, 0x02#8, 0x0300#16) := by decide

/-- V-SEC-16. -/
theorem test_ldxZp : (two (put (sec [0xA6#8, 0x40#8]) 0x0040#16 [0x00#8])).map (fun t => (t.x, t.qz, t.qn, t.ac)) =
    some (0x00#8, 0x00#8, 0x00#8, 0x0300#16) := by decide

/-- V-SEC-16. -/
theorem test_ldxAbs : (two (put (sec [0xAE#8, 0x00#8, 0x04#8]) 0x0400#16 [0xFF#8])).map (fun t => (t.x, t.qz, t.qn,
      t.ac)) =
    some (0xFF#8, 0xFF#8, 0xFF#8, 0x0300#16) := by decide

/-- V-SEC-17. -/
theorem test_ldyImm : (two (sec [0xA0#8, 0x02#8])).map (fun t => (t.y, t.qz, t.qn, t.ac)) =
    some (0x02#8, 0x02#8, 0x02#8, 0x0300#16) := by decide

/-- V-SEC-17. -/
theorem test_ldyZp : (two (put (sec [0xA4#8, 0x40#8]) 0x0040#16 [0x80#8])).map (fun t => (t.y, t.qz, t.qn, t.ac)) =
    some (0x80#8, 0x80#8, 0x80#8, 0x0300#16) := by decide

/-- V-SEC-17. -/
theorem test_ldyAbs : (two (put (sec [0xAC#8, 0x00#8, 0x04#8]) 0x0400#16 [0x01#8])).map (fun t => (t.y, t.qz, t.qn,
      t.ac)) =
    some (0x01#8, 0x01#8, 0x01#8, 0x0300#16) := by decide

/-- V-SEC-20. -/
theorem test_staZp : (two (sec [0x85#8, 0x50#8] 0x11#8)).map (fun t => (t.memRead 0x0050#16, t.qz, t.qn, t.t)) =
    some (some 0x11#8, 0x00#8, 0x00#8, 22) := by decide

/-- V-SEC-27: M is not written. -/
theorem test_staZp_window : (two (sec [0x85#8, 0x2A#8] 0x11#8)).map (fun t => (t.x, t.mem.length)) =
    some (0x11#8, 2) := by decide

/-- V-SEC-21. -/
theorem test_staZpX : (two (sec [0x95#8, 0x50#8] 0x11#8 (regs 0x00#8 0x00#8 0x00#8 0xFF#8 0x00#8))).map (fun t =>
      (t.memRead 0x004F#16, t.qz, t.qn)) =
    some (some 0x11#8, 0x00#8, 0x00#8) := by decide

/-- V-SEC-22. -/
theorem test_staAbs : (two (sec [0x8D#8, 0x10#8, 0x04#8] 0x11#8)).map (fun t => (t.memRead 0x0410#16, t.qz, t.qn,
      t.t)) =
    some (some 0x11#8, 0x00#8, 0x00#8, 12) := by decide

/-- V-SEC-23. -/
theorem test_staAbsX : (two (sec [0x9D#8, 0x00#8, 0x04#8] 0x11#8 (regs 0x00#8 0x00#8 0x00#8 0x02#8 0x00#8))).map
      (fun t => (t.memRead 0x0402#16, t.qz, t.qn)) =
    some (some 0x11#8, 0x00#8, 0x00#8) := by decide

/-- V-SEC-24. -/
theorem test_staAbsY : (two (sec [0x99#8, 0x00#8, 0x04#8] 0x11#8 (regs 0x00#8 0x00#8 0x00#8 0x00#8 0x03#8))).map
      (fun t => (t.memRead 0x0403#16, t.qz, t.qn)) =
    some (some 0x11#8, 0x00#8, 0x00#8) := by decide

/-- V-SEC-25. -/
theorem test_staIndX : (two (put (sec [0x81#8, 0x3E#8] 0x11#8 (regs 0x00#8 0x00#8 0x00#8 0x02#8 0x00#8)) 0x0040#16
      [0x00#8, 0x04#8])).map (fun t => (t.memRead 0x0400#16, t.qz, t.qn)) =
    some (some 0x11#8, 0x00#8, 0x00#8) := by decide

/-- V-SEC-26. -/
theorem test_staIndY : (two (put (sec [0x91#8, 0x40#8] 0x11#8 (regs 0x00#8 0x00#8 0x00#8 0x00#8 0x02#8)) 0x0040#16
      [0x00#8, 0x04#8])).map (fun t => (t.memRead 0x0402#16, t.qz, t.qn)) =
    some (some 0x11#8, 0x00#8, 0x00#8) := by decide

/-- V-SEC-28. -/
theorem test_stxZp : (two (sec [0x86#8, 0x50#8] 0x00#8 (regs 0x00#8 0x00#8 0x00#8 0x07#8 0x00#8))).map (fun t =>
      (t.memRead 0x0050#16, t.qz, t.qn)) =
    some (some 0x07#8, 0x00#8, 0x00#8) := by decide

/-- V-SEC-28. -/
theorem test_stxAbs : (two (sec [0x8E#8, 0x10#8, 0x04#8] 0x00#8 (regs 0x00#8 0x00#8 0x00#8 0x07#8 0x00#8))).map
      (fun t => (t.memRead 0x0410#16, t.qz, t.qn)) =
    some (some 0x07#8, 0x00#8, 0x00#8) := by decide

/-- V-SEC-29. -/
theorem test_styZp : (two (sec [0x84#8, 0x50#8] 0x00#8 (regs 0x00#8 0x00#8 0x00#8 0x00#8 0x09#8))).map (fun t =>
      (t.memRead 0x0050#16, t.qz, t.qn)) =
    some (some 0x09#8, 0x00#8, 0x00#8) := by decide

/-- V-SEC-29. -/
theorem test_styAbs : (two (sec [0x8C#8, 0x10#8, 0x04#8] 0x00#8 (regs 0x00#8 0x00#8 0x00#8 0x00#8 0x09#8))).map
      (fun t => (t.memRead 0x0410#16, t.qz, t.qn)) =
    some (some 0x09#8, 0x00#8, 0x00#8) := by decide

/-- V-SEC-30 to V-SEC-34: A, m and P before; AC, P, QZ and T after. -/
theorem test_adcImm_low : ([(0x37#8, 0xC9#8, 0x8A#8), (0x00#8, 0x10#8, 0x8B#8), (0x7F#8, 0x01#8, 0x8A#8), (0x80#8,
      0x80#8, 0x8A#8), (0xFF#8, 0xFF#8, 0x8B#8)] : List (Byte × Byte × Byte)).map
      (fun q => (two (sec [0x69#8, q.2.1] q.1 (regs q.2.2 0x00#8 0x00#8 0x00#8 0x00#8))).map
        (fun t => (t.ac, t.p, t.qz, t.t))) =
    [some (0x0300#16, 0x8B#8, 0x00#8, 19), some (0x0311#16, 0x8A#8, 0x11#8, 19), some (0x0380#16, 0xCA#8, 0x80#8,
      19), some (0x0300#16, 0xCB#8, 0x00#8, 19), some (0x03FF#16, 0x8B#8, 0xFF#8, 19)] := by decide

/-- V-SEC-35 to V-SEC-38: A, m and P before; AC, P, QZ and T after. -/
theorem test_adcImm_high : ([(0x50#8, 0x50#8, 0x8A#8), (0xD0#8, 0x90#8, 0x8A#8), (0x00#8, 0x00#8, 0x8A#8), (0xFF#8,
      0x00#8, 0x8B#8)] : List (Byte × Byte × Byte)).map
      (fun q => (two (sec [0x69#8, q.2.1] q.1 (regs q.2.2 0x00#8 0x00#8 0x00#8 0x00#8))).map
        (fun t => (t.ac, t.p, t.qz, t.t))) =
    [some (0x03A0#16, 0xCA#8, 0xA0#8, 19), some (0x0360#16, 0xCB#8, 0x60#8, 19), some (0x0300#16, 0x8A#8, 0x00#8,
      19), some (0x0300#16, 0x8B#8, 0x00#8, 19)] := by decide

/-- V-SEC-40 to V-SEC-43: A, m and P before; AC, P, QZ and T after. -/
theorem test_sbcImm_low : ([(0x10#8, 0x01#8, 0x01#8), (0x00#8, 0x01#8, 0x01#8), (0x80#8, 0x01#8, 0x01#8), (0x10#8,
      0x10#8, 0x01#8)] : List (Byte × Byte × Byte)).map
      (fun q => (two (sec [0xE9#8, q.2.1] q.1 (regs q.2.2 0x00#8 0x00#8 0x00#8 0x00#8))).map
        (fun t => (t.ac, t.p, t.qz, t.t))) =
    [some (0x030F#16, 0x01#8, 0x0F#8, 18), some (0x03FF#16, 0x00#8, 0xFF#8, 18), some (0x037F#16, 0x41#8, 0x7F#8,
      18), some (0x0300#16, 0x01#8, 0x00#8, 18)] := by decide

/-- V-SEC-44 to V-SEC-47: A, m and P before; AC, P, QZ and T after. -/
theorem test_sbcImm_high : ([(0x10#8, 0x10#8, 0x00#8), (0x7F#8, 0xFF#8, 0x01#8), (0x00#8, 0x00#8, 0x00#8), (0x50#8,
      0xB0#8, 0x01#8)] : List (Byte × Byte × Byte)).map
      (fun q => (two (sec [0xE9#8, q.2.1] q.1 (regs q.2.2 0x00#8 0x00#8 0x00#8 0x00#8))).map
        (fun t => (t.ac, t.p, t.qz, t.t))) =
    [some (0x03FF#16, 0x00#8, 0xFF#8, 18), some (0x0380#16, 0x40#8, 0x80#8, 18), some (0x03FF#16, 0x00#8, 0xFF#8,
      18), some (0x03A0#16, 0x40#8, 0xA0#8, 18)] := by decide

/-- By 44_secondary.md R262: 01 + 02 with C = 0. -/
theorem test_adcZp : (two (put (sec [0x65#8, 0x40#8] 0x01#8 (regs 0x00#8 0x00#8 0x00#8 0x00#8 0x00#8)) 0x0040#16
      [0x02#8])).map (fun t => (t.ac, t.p)) =
    some (0x0303#16, 0x00#8) := by decide

/-- By 44_secondary.md R262: 01 + 02 with C = 0. -/
theorem test_adcZpX : (two (put (sec [0x75#8, 0x3E#8] 0x01#8 (regs 0x00#8 0x00#8 0x00#8 0x02#8 0x00#8)) 0x0040#16
      [0x02#8])).map (fun t => (t.ac, t.p)) =
    some (0x0303#16, 0x00#8) := by decide

/-- By 44_secondary.md R262: 01 + 02 with C = 0. -/
theorem test_adcAbs : (two (put (sec [0x6D#8, 0x00#8, 0x04#8] 0x01#8
      (regs 0x00#8 0x00#8 0x00#8 0x00#8 0x00#8)) 0x0400#16 [0x02#8])).map (fun t => (t.ac, t.p)) =
    some (0x0303#16, 0x00#8) := by decide

/-- By 44_secondary.md R262: 01 + 02 with C = 0. -/
theorem test_adcAbsX : (two (put (sec [0x7D#8, 0xFE#8, 0x03#8] 0x01#8
      (regs 0x00#8 0x00#8 0x00#8 0x02#8 0x00#8)) 0x0400#16 [0x02#8])).map (fun t => (t.ac, t.p)) =
    some (0x0303#16, 0x00#8) := by decide

/-- By 44_secondary.md R262: 01 + 02 with C = 0. -/
theorem test_adcAbsY : (two (put (sec [0x79#8, 0xFD#8, 0x03#8] 0x01#8
      (regs 0x00#8 0x00#8 0x00#8 0x00#8 0x03#8)) 0x0400#16 [0x02#8])).map (fun t => (t.ac, t.p)) =
    some (0x0303#16, 0x00#8) := by decide

/-- By 44_secondary.md R262: 01 + 02 with C = 0. -/
theorem test_adcIndX : (two (put (put (sec [0x61#8, 0x3E#8] 0x01#8
      (regs 0x00#8 0x00#8 0x00#8 0x02#8 0x00#8)) 0x0040#16 [0x00#8, 0x04#8]) 0x0400#16 [0x02#8])).map (fun t =>
      (t.ac, t.p)) =
    some (0x0303#16, 0x00#8) := by decide

/-- By 44_secondary.md R262: 01 + 02 with C = 0. -/
theorem test_adcIndY : (two (put (put (sec [0x71#8, 0x40#8] 0x01#8
      (regs 0x00#8 0x00#8 0x00#8 0x00#8 0x02#8)) 0x0040#16 [0x00#8, 0x04#8]) 0x0402#16 [0x02#8])).map (fun t =>
      (t.ac, t.p)) =
    some (0x0303#16, 0x00#8) := by decide

/-- By 44_secondary.md R263: 09 - 04 with C = 1. -/
theorem test_sbcZp : (two (put (sec [0xE5#8, 0x40#8] 0x09#8 (regs 0x01#8 0x00#8 0x00#8 0x00#8 0x00#8)) 0x0040#16
      [0x04#8])).map (fun t => (t.ac, t.p)) =
    some (0x0305#16, 0x01#8) := by decide

/-- By 44_secondary.md R263: 09 - 04 with C = 1. -/
theorem test_sbcZpX : (two (put (sec [0xF5#8, 0x3E#8] 0x09#8 (regs 0x01#8 0x00#8 0x00#8 0x02#8 0x00#8)) 0x0040#16
      [0x04#8])).map (fun t => (t.ac, t.p)) =
    some (0x0305#16, 0x01#8) := by decide

/-- By 44_secondary.md R263: 09 - 04 with C = 1. -/
theorem test_sbcAbs : (two (put (sec [0xED#8, 0x00#8, 0x04#8] 0x09#8
      (regs 0x01#8 0x00#8 0x00#8 0x00#8 0x00#8)) 0x0400#16 [0x04#8])).map (fun t => (t.ac, t.p)) =
    some (0x0305#16, 0x01#8) := by decide

/-- By 44_secondary.md R263: 09 - 04 with C = 1. -/
theorem test_sbcAbsX : (two (put (sec [0xFD#8, 0xFE#8, 0x03#8] 0x09#8
      (regs 0x01#8 0x00#8 0x00#8 0x02#8 0x00#8)) 0x0400#16 [0x04#8])).map (fun t => (t.ac, t.p)) =
    some (0x0305#16, 0x01#8) := by decide

/-- By 44_secondary.md R263: 09 - 04 with C = 1. -/
theorem test_sbcAbsY : (two (put (sec [0xF9#8, 0xFD#8, 0x03#8] 0x09#8
      (regs 0x01#8 0x00#8 0x00#8 0x00#8 0x03#8)) 0x0400#16 [0x04#8])).map (fun t => (t.ac, t.p)) =
    some (0x0305#16, 0x01#8) := by decide

/-- By 44_secondary.md R263: 09 - 04 with C = 1. -/
theorem test_sbcIndX : (two (put (put (sec [0xE1#8, 0x3E#8] 0x09#8
      (regs 0x01#8 0x00#8 0x00#8 0x02#8 0x00#8)) 0x0040#16 [0x00#8, 0x04#8]) 0x0400#16 [0x04#8])).map (fun t =>
      (t.ac, t.p)) =
    some (0x0305#16, 0x01#8) := by decide

/-- By 44_secondary.md R263: 09 - 04 with C = 1. -/
theorem test_sbcIndY : (two (put (put (sec [0xF1#8, 0x40#8] 0x09#8
      (regs 0x01#8 0x00#8 0x00#8 0x00#8 0x02#8)) 0x0040#16 [0x00#8, 0x04#8]) 0x0402#16 [0x04#8])).map (fun t =>
      (t.ac, t.p)) =
    some (0x0305#16, 0x01#8) := by decide

/-- V-SEC-50 to V-SEC-54: P before is 40; AC, QZ, QN and P after. -/
theorem test_cmpImm : ([(0x11#8, 0x11#8), (0x10#8, 0x11#8), (0x80#8, 0x01#8), (0x00#8, 0xFF#8), (0xFF#8,
      0x00#8)] : List (Byte × Byte)).map
      (fun q => (two (sec [0xC9#8, q.2] q.1 (regs 0x40#8 0x00#8 0x00#8 0x00#8 0x00#8))).map
        (fun t => (t.ac, t.qz, t.qn, t.p))) =
    [some (0x0311#16, 0x00#8, 0x00#8, 0x41#8), some (0x0310#16, 0xFF#8, 0xFF#8, 0x40#8), some (0x0380#16, 0x7F#8,
      0x7F#8, 0x41#8), some (0x0300#16, 0x01#8, 0x01#8, 0x40#8), some (0x03FF#16, 0xFF#8, 0xFF#8,
      0x41#8)] := by decide

/-- The other modes after V-SEC-54. -/
theorem test_cmpZp : (two (put (sec [0xC5#8, 0x40#8] 0x05#8) 0x0040#16 [0x03#8])).map (fun t => (t.qz, t.flagC,
      t.t)) =
    some (0x02#8, true, 17) := by decide

/-- The other modes after V-SEC-54. -/
theorem test_cmpAbs : (two (put (sec [0xCD#8, 0x00#8, 0x04#8] 0x05#8) 0x0400#16 [0x09#8])).map (fun t => (t.qz,
      t.flagN, t.flagC, t.t)) =
    some (0xFC#8, true, false, 7) := by decide

/-- V-SEC-60. -/
theorem test_inx : (two (sec [0xE8#8] 0x00#8 (regs 0x00#8 0x00#8 0x00#8 0xFF#8 0x00#8))).map (fun t => (t.x,
      t.flagZ, t.flagN, t.t, t.lr)) =
    some (0x00#8, true, false, 26, 0x0301#16) := by decide

/-- V-SEC-61. -/
theorem test_iny : (two (sec [0xC8#8] 0x00#8 (regs 0x00#8 0x00#8 0x00#8 0x00#8 0x7F#8))).map (fun t => (t.y,
      t.flagN, t.t)) =
    some (0x80#8, true, 26) := by decide

/-- V-SEC-62. -/
theorem test_dex : (two (sec [0xCA#8])).map (fun t => (t.x, t.flagN, t.flagZ)) =
    some (0xFF#8, true, false) := by decide

/-- V-SEC-63. -/
theorem test_dey : (two (sec [0x88#8] 0x00#8 (regs 0x00#8 0x00#8 0x00#8 0x00#8 0x01#8))).map (fun t => (t.y,
      t.flagZ)) =
    some (0x00#8, true) := by decide

/-- V-SEC-64. -/
theorem test_tax : (two (sec [0xAA#8] 0x80#8)).map (fun t => (t.x, t.flagN, t.ac)) =
    some (0x80#8, true, 0x0380#16) := by decide

/-- V-SEC-65. -/
theorem test_tay : (two (sec [0xA8#8] 0x00#8 (regs 0x00#8 0x00#8 0x00#8 0x00#8 0x55#8))).map (fun t => (t.y,
      t.flagZ)) =
    some (0x00#8, true) := by decide

/-- V-SEC-66. -/
theorem test_txa : (two (sec [0x8A#8] 0x11#8)).map (fun t => (t.ac, t.flagZ)) =
    some (0x0300#16, true) := by decide

/-- V-SEC-67. -/
theorem test_tya : (two (sec [0x98#8] 0x00#8 (regs 0x00#8 0x00#8 0x00#8 0x00#8 0x7F#8))).map (fun t => (t.ac,
      t.flagN, t.flagZ)) =
    some (0x037F#16, false, false) := by decide

/-- V-SEC-68. -/
theorem test_clc : (two (sec [0x18#8] 0x00#8 (regs 0xFF#8 0x00#8 0x00#8 0x00#8 0x00#8))).map (fun t => (t.p, t.t)) =
    some (0xFE#8, 27) := by decide

/-- V-SEC-69. -/
theorem test_sec : (two (sec [0x38#8])).map (fun t => (t.p, t.t)) =
    some (0x01#8, 27) := by decide

/-- V-SEC-71. -/
theorem test_pha : (two (sec [0x48#8] 0x5A#8 ({ running with sp := 0x01#8 }))).map (fun t => (t.sp,
      t.memRead 0x0000#16, t.t)) =
    some (0x00#8, some 0x5A#8, 24) := by decide

/-- V-SEC-73. -/
theorem test_pla : (two (put (sec [0x68#8] 0x00#8 ({ running with sp := 0x10#8 })) 0x0010#16 [0x80#8])).map
      (fun t => (t.ac, t.sp, t.flagN, t.t)) =
    some (0x0380#16, 0x11#8, true, 23) := by decide

/-- V-SEC-75. -/
theorem test_php : (two (sec [0x08#8] 0x00#8 (regs 0x8E#8 0x00#8 0x00#8 0x00#8 0x00#8))).map (fun t =>
      (t.memRead 0x00FF#16, t.sp, t.p, t.t)) =
    some (some 0x3E#8, 0xFF#8, 0x8E#8, 17) := by decide

/-- V-SEC-77. -/
theorem test_plp : (two (put (sec [0x28#8] 0x00#8 ({ running with sp := 0xFF#8 })) 0x00FF#16 [0xC2#8])).map
      (fun t => (t.p, t.qz, t.qn, t.sp, t.t)) =
    some (0xC2#8, 0x00#8, 0x80#8, 0x00#8, 17) := by decide

/-- V-SEC-80: taken back 4 from 0302, and not taken; T 24 either way. -/
theorem test_bplRel : (two (sec [0x10#8, 0xFC#8] 0x00#8 (regs 0x00#8 0x00#8 0x00#8 0x00#8 0x00#8))).map (fun t =>
      (t.lr, t.t)) = some (0x02FE#16, 24) ∧
    (two (sec [0x10#8, 0xFC#8] 0x00#8 (regs 0x00#8 0x00#8 0x80#8 0x00#8 0x00#8))).map (fun t => (t.lr, t.t)) = some
      (0x0302#16, 24) := by decide

/-- V-SEC-80: taken back 4 from 0302, and not taken; T 24 either way. -/
theorem test_bmiRel : (two (sec [0x30#8, 0xFC#8] 0x00#8 (regs 0x00#8 0x00#8 0x80#8 0x00#8 0x00#8))).map (fun t =>
      (t.lr, t.t)) = some (0x02FE#16, 24) ∧
    (two (sec [0x30#8, 0xFC#8] 0x00#8 (regs 0x00#8 0x00#8 0x7F#8 0x00#8 0x00#8))).map (fun t => (t.lr, t.t)) = some
      (0x0302#16, 24) := by decide

/-- V-SEC-80: taken back 4 from 0302, and not taken; T 24 either way. -/
theorem test_bvcRel : (two (sec [0x50#8, 0xFC#8] 0x00#8 (regs 0x00#8 0x00#8 0x00#8 0x00#8 0x00#8))).map (fun t =>
      (t.lr, t.t)) = some (0x02FE#16, 24) ∧
    (two (sec [0x50#8, 0xFC#8] 0x00#8 (regs 0x40#8 0x00#8 0x00#8 0x00#8 0x00#8))).map (fun t => (t.lr, t.t)) = some
      (0x0302#16, 24) := by decide

/-- V-SEC-80: taken back 4 from 0302, and not taken; T 24 either way. -/
theorem test_bvsRel : (two (sec [0x70#8, 0xFC#8] 0x00#8 (regs 0x40#8 0x00#8 0x00#8 0x00#8 0x00#8))).map (fun t =>
      (t.lr, t.t)) = some (0x02FE#16, 24) ∧
    (two (sec [0x70#8, 0xFC#8] 0x00#8 (regs 0xBF#8 0x00#8 0x00#8 0x00#8 0x00#8))).map (fun t => (t.lr, t.t)) = some
      (0x0302#16, 24) := by decide

/-- V-SEC-80: taken back 4 from 0302, and not taken; T 24 either way. -/
theorem test_bccRel : (two (sec [0x90#8, 0xFC#8] 0x00#8 (regs 0x00#8 0x00#8 0x00#8 0x00#8 0x00#8))).map (fun t =>
      (t.lr, t.t)) = some (0x02FE#16, 24) ∧
    (two (sec [0x90#8, 0xFC#8] 0x00#8 (regs 0x01#8 0x00#8 0x00#8 0x00#8 0x00#8))).map (fun t => (t.lr, t.t)) = some
      (0x0302#16, 24) := by decide

/-- V-SEC-80: taken back 4 from 0302, and not taken; T 24 either way. -/
theorem test_bcsRel : (two (sec [0xB0#8, 0xFC#8] 0x00#8 (regs 0x01#8 0x00#8 0x00#8 0x00#8 0x00#8))).map (fun t =>
      (t.lr, t.t)) = some (0x02FE#16, 24) ∧
    (two (sec [0xB0#8, 0xFC#8] 0x00#8 (regs 0xFE#8 0x00#8 0x00#8 0x00#8 0x00#8))).map (fun t => (t.lr, t.t)) = some
      (0x0302#16, 24) := by decide

/-- V-SEC-80: taken back 4 from 0302, and not taken; T 24 either way. -/
theorem test_bneRel : (two (sec [0xD0#8, 0xFC#8] 0x00#8 (regs 0x00#8 0x05#8 0x00#8 0x00#8 0x00#8))).map (fun t =>
      (t.lr, t.t)) = some (0x02FE#16, 24) ∧
    (two (sec [0xD0#8, 0xFC#8] 0x00#8 (regs 0x00#8 0x00#8 0x00#8 0x00#8 0x00#8))).map (fun t => (t.lr, t.t)) = some
      (0x0302#16, 24) := by decide

/-- V-SEC-80: taken back 4 from 0302, and not taken; T 24 either way. -/
theorem test_beqRel : (two (sec [0xF0#8, 0xFC#8] 0x00#8 (regs 0x00#8 0x00#8 0x00#8 0x00#8 0x00#8))).map (fun t =>
      (t.lr, t.t)) = some (0x02FE#16, 24) ∧
    (two (sec [0xF0#8, 0xFC#8] 0x00#8 (regs 0x00#8 0x01#8 0x00#8 0x00#8 0x00#8))).map (fun t => (t.lr, t.t)) = some
      (0x0302#16, 24) := by decide

/-- After V-SEC-81. -/
theorem test_jmpAbs : (two (sec [0x4C#8, 0x20#8, 0x03#8])).map (fun t => (t.lr, t.t)) =
    some (0x0320#16, 13) := by decide

/-- V-SEC-83. -/
theorem test_nop : (two (sec [0xEA#8])).map (fun t => (t.lr, t.ac, t.p, t.t)) =
    some (0x0301#16, 0x0300#16, 0x00#8, 28) := by decide

/-- V-SEC-80. -/
theorem test_brk : (two (sec [0x00#8])).map (fun t => (t.lr, t.sel, t.pc, t.t, t.answer)) =
    some (0x0301#16, 0x00#8, 0x0200#16, 22, some (.sliceExit .switched 148)) := by decide

/-- V-SEC-84. -/
theorem test_esc : (two (sec [0x6C#8, 0x00#8, 0x03#8])).map (fun t => (t.lr, t.ir, t.sel, t.t)) =
    some (0x0301#16, 0x6C#8, 0x00#8, 22) := by decide

/-! ### Interrupts, host commands and slices (95_test_vectors.md 2.1, 2.6) -/

/-- V-IRQ-1: a redirect saves PC, AC and SEL and forces the primary interpreter (60_exceptions.md R334). -/
theorem test_irq : (one (put { State.reset with
      pc := 0x1234#16, ac := 0xBEEF#16, sel := 0x02#8, pending := [.irqCheck] } 0x01F6#16 [0x00#8, 0x05#8])).map
      (fun t => ((t.ipc, t.iac, t.isel), t.pc, t.sel, t.insvc, t.answer)) =
    some ((0x1234#16, 0xBEEF#16, 0x02#8), 0x0500#16, 0x00#8, true, some (.irqChecked true)) := by decide

/-- The example of 60_exceptions.md R338. -/
theorem test_rti : (one (prim [0x16#8] { running with
      pc := 0x0502#16, insvc := true, ipc := 0x1234#16, iac := 0xBEEF#16, t := 9 })).map
      (fun t => (t.pc, t.ac, t.insvc, t.t, t.answer)) =
    some (0x1234#16, 0xBEEF#16, false, -7, some (.sliceExit .exhausted 148)) := by decide

/-- The example of 60_exceptions.md R339, and an RTI outside a handler (R338). -/
theorem test_rti_stops : (one (prim [0x16#8] { running with pc := 0x0502#16, t := 1 })).map
      (fun t => (t.pc, t.t, t.answer)) =
    some (0x0502#16, 1, some (.sliceExit (.deferred .rti) 148)) ∧
    stop (prim [0x16#8]) = some .rtiOutsideHandler := by decide

/-- V-SCH-2, V-SCH-4: the entry value of T. -/
theorem test_startSlice : ([(42, 0x00#8), (43, 0x00#8), (44, 0x00#8), (148, 0x00#8), (297, 0x00#8), (46, 0x01#8),
      (148, 0x02#8), (301, 0x02#8)] : List (Nat × Byte)).map
      (fun q => (one { State.reset with sel := q.2, pending := [.startSlice (.cycles q.1)] }).map (·.t)) =
    [some 0, some 0, some 1, some 53, some 127, some 0, some 51, some 127] := by decide

/-- V-SCH-1, V-SCH-3, V-SCH-6. -/
theorem test_startSlice_stops :
    stop { State.reset with pending := [.startSlice (.cycles 41)] } = some .budgetPrecondition ∧
    stop { State.reset with pending := [.startSlice (.cycles 298)] } = some .budgetPrecondition ∧
    stop { State.reset with sel := 0x03#8, pending := [.startSlice (.cycles 148)] } = some .selReserved := by decide

/-- V-SCH-5. -/
theorem test_startSlice_unbounded :
    (one { State.reset with pending := [.startSlice .unbounded] }).map (fun t => (t.t, t.sliceN)) = some (127, 296) :=
  by decide

/-- V-SCH-9: the charge of the first LDI ends the slice. -/
theorem test_exhausted : (one (prim [0x01#8, 0x05#8] { running with t := 7, sliceN := 56 })).map
      (fun t => (t.t, t.pc, t.run, t.answer)) =
    some (-1, 0x0202#16, .idle, some (.sliceExit .exhausted 56)) := by decide

theorem test_hostRead : (one { put State.reset 0x0300#16 [0x5A#8] with pending := [.hostRead 0x0300#16] }).map
      (·.answer) = some (some (.byteRead 0x5A#8)) ∧
    stop { State.reset with pending := [.hostRead 0x0300#16] } = some .readUnwritten := by decide

/-- A byte read through the SYSFN window; a RESET keeps AC and forgets memory (log entry 8). -/
theorem test_host_window : (one { State.reset with pending := [.hostWrite 0x0023#16 0xE0#8] }).map (·.sysfn) =
      some 0xE000#16 ∧
    (one { put State.reset 0x0300#16 [0x5A#8] with ac := 0x1234#16, pending := [.reset] }).map
      (fun t => (t.ac, t.mem.length, t.pc)) = some (0x1234#16, 0, 0x0200#16) := by decide

/-! ### The hypotheses of the statements can be met

One theorem for each statement that has hypotheses: states and operands that meet them, clause by clause, at the
boundaries of the ranges. -/

/-- The state at Execute of `op` with AD = 0x0400, where M[0x0400] = 0x7F. -/
def atExecute (op : Byte) (s : State := running) : State := latched op 0x0400#16 (put s 0x0400#16 [0x7F#8])

/-- The state at Execute of `op` with an AD whose byte holds no value. -/
def atExecuteEmpty (op : Byte) : State := latched op 0x0400#16 running

/-- A state with another T. -/
def atTicks (t : Int) (s : State := running) : State := { s with t := t }

theorem witness_DecodeOfEncode : Instr.wellFormed (.sys 0x80#8) = true ∧ Instr.wellFormed (.esc 0x02#8) = true ∧
    Instr.wellFormed (.bnel 0xFFFF#16) = true := by decide

theorem witness_EncodeOfDecode :
    decode .primary [0x02#8, 0x34#8, 0x12#8, 0x99#8] = .ok (.ldwi 0x1234#16, [0x99#8]) ∧
    decode .secondary [0xFF#8] = .ok (.esc 0xFF#8, []) := ⟨rfl, rfl⟩

theorem witness_UnimplementedOpcodesDecode : 0x02#8 ∉ implementedOpcodes ∧ 0xFF#8 ∉ implementedOpcodes ∧
    0x00#8 ∈ implementedOpcodes ∧ 0xFD#8 ∈ implementedOpcodes := by decide

theorem witness_SecondaryEncodings : secondaryTable .brk = some (0x00#8, .brk, .implied) ∧
    secondaryTable (.esc 0xFF#8) = some (0xFF#8, .esc, .implied) ∧
    secondaryTable (.bneRel 0xFC#8) = some (0xD0#8, .bne, .rel) ∧
    secondaryTable (.staIndY 0x40#8) = some (0x91#8, .sta, .indY 0x40#8) := by decide

theorem witness_ReservedEncodingsFault :
    (∀ op ∈ ([0x00#8, 0x18#8, 0xFF#8] : List Byte), (prim [op]).run = .running ∧ (prim [op]).sel = selP ∧
      (prim [op]).memRead (prim [op]).pc = some op ∧ (op = 0x00#8 ∨ 0x18 ≤ op.toNat)) ∧
    (∀ xop ∈ ([0x00#8, 0x07#8, 0xFF#8] : List Byte), (prim [0x17#8, xop]).memRead 0x0200#16 = some 0x17#8 ∧
      (prim [0x17#8, xop]).memRead (0x0200#16 + 1) = some xop ∧ (xop = 0x00#8 ∨ 0x07 ≤ xop.toNat)) ∧
    (∀ d ∈ ([0x01#8, 0x7F#8] : List Byte), (prim [0x15#8, d]).memRead 0x0200#16 = some 0x15#8 ∧
      (prim [0x15#8, d]).memRead (0x0200#16 + 1) = some d ∧ 1 ≤ d.toNat ∧ d.toNat ≤ 0x7F) := by decide

theorem witness_StepRunsDecodedInstruction :
    ((prim [0x11#8]).run = .running ∧ (prim [0x11#8]).sel = 0x00#8 ∧
      decode .primary ((prim [0x11#8]).readRun 4 (prim [0x11#8]).pc) = .ok (.ret, [])) ∧
    ((sec [0xE8#8]).run = .running ∧ (sec [0xE8#8]).sel = 0x01#8 ∧ (sec [0xE8#8]).memRead (sec
      [0xE8#8]).lr = some 0xE8#8 ∧
      decode .secondary (0xE8#8 :: ((sec [0xE8#8]).setIr 0xE8#8).readRun 2 ((sec [0xE8#8]).lr + 1)) = .ok (.inx,
      [])) ∧
    ((atExecute 0xE8#8).run = .running ∧ (atExecute 0xE8#8).sel = 0x02#8 ∧
      decode .secondary [(atExecute 0xE8#8).ir, (atExecute 0xE8#8).adl, (atExecute 0xE8#8).adh] =
        .ok (.inx, [0x00#8, 0x04#8])) ∧
    ({ running with sel := 0x03#8 }.sel ≠ 0x00#8 ∧ { running with sel := 0x03#8 }.sel ≠ 0x01#8 ∧
      { running with sel := 0x03#8 }.sel ≠ 0x02#8) :=
  ⟨⟨rfl, rfl, rfl⟩, ⟨rfl, rfl, rfl, rfl⟩, ⟨rfl, rfl, rfl⟩, by decide⟩

/-- Decode of an immediate form does not read the operand byte, which may hold no value (44_secondary.md R245): LR
passes it and AD is its address. -/
theorem test_immediate_operand_unread :
    (one (sec [0xA9#8])).map (fun t => (t.lr, t.ad, t.ir, t.sel)) =
      some (0x0302#16, 0x0301#16, 0xA9#8, 0x02#8) := by decide

theorem witness_FetchOperandUnread : (sec [0xD0#8]).run = .running ∧ (sec [0xD0#8]).sel = 0x01#8 ∧
    secondaryTable (.bneRel 0x00#8) = some (0xD0#8, .bne, .rel) ∧
    (sec [0xD0#8]).memRead (sec [0xD0#8]).lr = some 0xD0#8 ∧
    (sec [0xD0#8]).memRead ((sec [0xD0#8]).lr + 1) = none := ⟨rfl, rfl, rfl, rfl, rfl⟩

theorem witness_FetchReadsInstruction :
    ((prim [0x02#8, 0x34#8, 0x12#8]).run = .running ∧ (prim [0x02#8, 0x34#8, 0x12#8]).sel = 0x00#8 ∧
      BytesAt (prim [0x02#8, 0x34#8, 0x12#8]) (prim [0x02#8, 0x34#8, 0x12#8]).pc (encode (.ldwi 0x1234#16))) ∧
    ((sec [0xA9#8, 0x37#8]).sel = 0x01#8 ∧ (sec [0xA9#8, 0x37#8]).memRead (sec [0xA9#8, 0x37#8]).lr = some 0xA9#8 ∧
      encode (.ldaImm 0x37#8) = 0xA9#8 :: [0x37#8] ∧
      BytesAt ((sec [0xA9#8, 0x37#8]).setIr 0xA9#8) ((sec [0xA9#8, 0x37#8]).lr + 1) [0x37#8]) ∧
    (running.memRead running.pc = none ∧ { running with sel := 0x01#8 }.memRead running.lr = none) ∧
    (0 < 2 ∧ 2 < (encode (.ldwi 0x1234#16)).length ∧
      BytesAt (prim [0x02#8, 0x34#8]) (prim [0x02#8, 0x34#8]).pc ((encode (.ldwi 0x1234#16)).take 2) ∧
      (prim [0x02#8, 0x34#8]).memRead ((prim [0x02#8, 0x34#8]).pc + BitVec.ofNat 16 2) = none) :=
  ⟨⟨rfl, rfl, rfl, rfl, rfl, trivial⟩, ⟨rfl, rfl, rfl, rfl, trivial⟩, ⟨rfl, rfl⟩, by decide, by decide,
   ⟨rfl, rfl, trivial⟩, rfl⟩

/-- T = 6 = EXP_EXTRA_S admits; the first or the second operand byte holds no value. -/
theorem witness_FetchOperandMissing :
    secondaryTable (.ldaZpX 0x00#8) = some (0xB5#8, .lda, .zpX 0x00#8) ∧
    secondaryTable (.ldaAbs 0x0034#16) = some (0xAD#8, .lda, .abs 0x0034#16) ∧
    (sec [0xB5#8]).memRead (sec [0xB5#8]).lr = some 0xB5#8 ∧
    ((sec [0xB5#8]).setIr 0xB5#8).memRead ((sec [0xB5#8]).lr + BitVec.ofNat 16 1) = none ∧
    ({ sec [0xAD#8, 0x34#8] with t := 6 }.cfg.expExtraS : Int) ≤ { sec [0xAD#8, 0x34#8] with t := 6 }.t ∧
    BytesAt ({ sec [0xAD#8, 0x34#8] with t := 6 }.setIr 0xAD#8) ((sec [0xAD#8, 0x34#8]).lr + 1)
      (((encode (.ldaAbs 0x0034#16)).drop 1).take (2 - 1)) ∧ 2 < (encode (.ldaAbs 0x0034#16)).length ∧
    ({ sec [0xAD#8, 0x34#8] with t := 6 }.setIr 0xAD#8).memRead
      ((sec [0xAD#8, 0x34#8]).lr + BitVec.ofNat 16 2) = none ∧
    stop { sec [0xAD#8, 0x34#8] with t := 6 } = some .readUnwritten :=
  ⟨rfl, rfl, rfl, rfl, by decide, ⟨rfl, trivial⟩, by decide, rfl, by decide⟩

theorem witness_SliceLoop : interp running.sel = some .primary ∧ running.run = .running ∧
    interp { running with sel := 0x02#8 }.sel = some .secondary ∧ interp
      { running with sel := 0x01#8 }.sel = some .secondary ∧
    State.reset.run = .idle ∧ State.reset.pending = [] ∧
    { State.reset with pending := [.irqCheck] }.pending = .irqCheck :: [] := by decide

/-- One running step that goes on, one that ends EXHAUSTED, one SWITCHED, one DEFERRED. -/
theorem witness_RunningStepOutcomes :
    (∃ t, (prim [0x01#8, 0x05#8]).run = .running ∧ step (prim [0x01#8, 0x05#8]) = .next t ∧ t.run = .running) ∧
    (∃ t, step (prim [0x01#8, 0x05#8] { running with t := 7 }) = .next t ∧
      t.answer = some (.sliceExit .exhausted 148)) ∧
    (∃ t, step (atExecute 0x00#8) = .next t ∧ t.answer = some (.sliceExit .switched 148)) ∧
    (∃ t, step (prim [0x16#8] { running with t := 1 }) = .next t ∧
      t.answer = some (.sliceExit (.deferred .rti) 148)) :=
  ⟨⟨_, rfl, rfl, rfl⟩, ⟨_, rfl, rfl⟩, ⟨_, rfl, rfl⟩, ⟨_, rfl, rfl⟩⟩

theorem witness_SliceEntry : interp State.reset.sel = some .primary ∧ interp (0x02#8) = some .secondary ∧
    budgetLegal Config.default .primary 42 = true ∧ budgetLegal Config.default .primary 297 = true ∧
    budgetLegal Config.default .primary 41 = false ∧ budgetLegal Config.default .secondary 301 = true ∧
    budgetLegal Config.default .secondary 302 = false ∧
    { State.reset with sel := 0xFF#8 }.sel ≠ 0x00#8 ∧ { State.reset with sel := 0xFF#8 }.sel ≠ 0x01#8 ∧
    { State.reset with sel := 0xFF#8 }.sel ≠ 0x02#8 := by decide

theorem witness_HostAccess : State.reset.memRead 0x0022#16 = some 0x00#8 ∧ State.reset.memRead 0xFFFF#16 = none ∧
    (put State.reset 0xFFFF#16 [0x5A#8]).memRead 0xFFFF#16 = some 0x5A#8 ∧ 0xFFFE#16 ≠ 0xFFFF#16 := by decide

theorem witness_RegisterWindows : State.reset.cfg.AddressesWf ∧ OutsideWindows State.reset.cfg 0x0021#16 ∧
    OutsideWindows State.reset.cfg 0x002C#16 ∧ 0 < 8 ∧ 7 < 8 := by
  refine ⟨⟨by decide, by decide, by decide, ?_, by decide, by decide⟩, ⟨rfl, rfl⟩, ⟨rfl, rfl⟩, by decide⟩
  intro k hk a ha
  subst ha
  interval_cases k <;> decide

theorem witness_Reset : OutsideWindows Config.default 0x0000#16 ∧ OutsideWindows Config.default 0xFFFF#16 :=
  ⟨⟨rfl, rfl⟩, ⟨rfl, rfl⟩⟩

/-- A zero-page word that wraps, and one whose second byte alone holds no value. -/
def zeroPage : State := put (put running 0x00FF#16 [0xCD#8]) 0x0000#16 [0xAB#8]

theorem witness_ZeroPageLoads : zeroPage.memRead (mkWord 0x00#8 0xFF#8) = some 0xCD#8 ∧
    zeroPage.memRead (mkWord 0x00#8 (0xFF#8 + 1)) = some 0xAB#8 ∧ running.memRead (mkWord 0x00#8 0x40#8) = none ∧
    zeroPage.memRead (mkWord 0x00#8 (0x00#8 + 1)) = none := by decide

theorem witness_ZeroPageStores : 0x0041#16 ≠ mkWord 0x00#8 0x40#8 ∧ 0x0042#16 ≠ mkWord 0x00#8
      (0x40#8 + 1) := by decide

theorem witness_AddSubWord : zeroPage.memRead (mkWord 0x00#8 0xFF#8) = some 0xCD#8 ∧
    zeroPage.memRead (mkWord 0x00#8 (0xFF#8 + 1)) = some 0xAB#8 ∧ running.memRead
      (mkWord 0x00#8 0x40#8) = none := by decide

theorem witness_PushPop : zeroPage.memRead (mkWord 0x00#8 0xFF#8) = some 0xCD#8 ∧
    { zeroPage with sp := 0xFF#8 }.memRead (mkWord 0x00#8 ({ zeroPage with sp := 0xFF#8 }.sp + 1)) = some 0xAB#8 ∧
    running.memRead (mkWord 0x00#8 (0x00#8 + 1)) = none ∧ 0x0010#16 ≠ mkWord 0x00#8 (0x00#8 - 2) ∧
    0x0010#16 ≠ mkWord 0x00#8 (0x00#8 - 1) := by decide

/-- D = 0 at T = 0 is admitted, D = -128 at T = 127 is not; 0x01 and 0x7F are reserved. -/
theorem witness_SysDeferral : BitVec.toInt 0x00#8 ≤ 0 ∧ 0 ≤ (atSys 0 0x0208#16 0xE000#16).t + BitVec.toInt 0x00#8 ∧
    BitVec.toInt 0x80#8 ≤ 0 ∧ (atSys 127 0x0208#16 0xE000#16).t + BitVec.toInt 0x80#8 < 0 ∧ 0 < BitVec.toInt 0x01#8 ∧
    0 < BitVec.toInt 0x7F#8 ∧ (atSys 0 0x0208#16 0xE000#16).run = .running ∧
    (one (prim [0x15#8, 0x00#8] (atSys 20 0x0208#16 0xE000#16))).isSome = true := by decide

theorem witness_SlotTable : 1 ≤ Config.default.sysStride ∧
    (slotOf Config.default 0xE0F0#16).isSome = true ∧ slotOf Config.default 0xE100#16 = none := by decide

/-- The slots of the reference table, and a report of -14 - 1 with D = 0. -/
theorem witness_SysCall : BitVec.toInt 0x00#8 ≤ 0 ∧ 0 ≤ (atSys 0 0x0208#16 0xE008#16).t + BitVec.toInt 0x00#8 ∧
    slotOf Config.default 0xE008#16 = none ∧
    slotOf Config.default 0xE020#16 = some ⟨"SYS_Multiply16", 6, .multiply16, -20⟩ ∧
    -BitVec.toInt 0xFB#8 < (6 : Int) ∧ (6 : Int) ≤ -BitVec.toInt 0xFA#8 ∧
    (∃ v r, runRoutine ⟨"SYS_Multiply16", 6, .multiply16, -20⟩ (atSys 6 0x0208#16 0xE020#16) = .ok (v, r) ∧ 1 ≤ -r ∧
      -r ≤ (atSys 6 0x0208#16 0xE020#16).cfg.maxtP - BitVec.toInt 0xFA#8) ∧
    (∃ v r, runRoutine ⟨"late", 0, .placeholder, -15⟩ running = .ok (v, r) ∧
      ¬(1 ≤ -r ∧ -r ≤ running.cfg.maxtP - BitVec.toInt 0x00#8)) ∧
    (∃ f, runRoutine ⟨"SYS_CopyBytes", 10, .copyBytes, -24⟩
      (atSys 10 0x0208#16 0xE030#16 ⟨0x00#8, 0x03#8, 0x00#8, 0x04#8, 0x01#8, 0x00#8, 0x00#8, 0x00#8⟩) = .error f) ∧
    (⟨"own", 0, .native 7, 0⟩ : Slot).routine = .native 7 :=
  ⟨by decide, by decide, by decide, by decide, by decide, by decide, ⟨_, _, rfl, by decide, by decide⟩,
   ⟨_, _, rfl, by decide⟩, ⟨_, rfl⟩, rfl⟩

theorem witness_SysPlaceholderAndRunSecondary : BitVec.toInt 0x00#8 ≤ 0 ∧
    0 ≤ (atSys 0 0x0208#16 0xE000#16).t + BitVec.toInt 0x00#8 ∧
    slotOf Config.default 0xE000#16 = some ⟨"SYS_Placeholder", 0, .placeholder, -10⟩ ∧
    slotOf Config.default 0xE010#16 = some ⟨"SYS_RunSecondary", 0, .runSecondary, -12⟩ ∧
    ((0 : Nat) : Int) ≤ -BitVec.toInt 0x00#8 ∧ (12 : Int) ≤ Config.default.maxtP - BitVec.toInt 0x00#8 ∧
    (atSys 0 0x0208#16 0xE010#16).run = .running ∧ (atSys 0 0x0208#16 0xE010#16).sel = 0x00#8 := by decide

theorem witness_SysMultiplyStep : BitVec.toInt 0xFA#8 ≤ 0 ∧ 0 ≤
      (atSys 6 0x0208#16 0xE020#16).t + BitVec.toInt 0xFA#8 ∧
    slotOf Config.default 0xE020#16 = some ⟨"SYS_Multiply16", 6, .multiply16, -20⟩ ∧
    ((6 : Nat) : Int) ≤ -BitVec.toInt 0xFA#8 ∧ (20 : Int) ≤ Config.default.maxtP - BitVec.toInt 0xFA#8 := by decide

theorem witness_MultiplyProduct : (∀ k : Nat, 0 ≤ (fun _ => (6 : Int)) k + BitVec.toInt 0xFA#8) ∧
    BitVec.toInt 0xFA#8 ≤ 0 ∧
    slotOf Config.default (atSys 6 0x0208#16 0xE020#16).sysfn = some ⟨"SYS_Multiply16", 6, .multiply16, -20⟩ ∧
    ((6 : Nat) : Int) ≤ -BitVec.toInt 0xFA#8 ∧ (20 : Int) ≤ Config.default.maxtP - BitVec.toInt 0xFA#8 ∧
    (atSys 6 0x0208#16 0xE020#16 ⟨0x2C#8, 0x01#8, 0x07#8, 0x00#8, 0x00#8, 0x00#8, 0x01#8,
      0x00#8⟩).scratch.b6 = 0x01#8 ∧
    (atSys 6 0x0208#16 0xE020#16 ⟨0x2C#8, 0x01#8, 0x07#8, 0x00#8, 0x00#8, 0x00#8, 0x01#8,
      0x00#8⟩).scratch.b7 = 0x00#8 :=
  ⟨fun _ => show (0 : Int) ≤ 6 + BitVec.toInt 0xFA#8 by decide, by decide, by decide, by decide, by decide, rfl, rfl⟩

theorem witness_SysCopyStep : BitVec.toInt 0xF6#8 ≤ 0 ∧ 0 ≤ (atSys 10 0x0208#16 0xE030#16).t + BitVec.toInt 0xF6#8 ∧
    slotOf Config.default 0xE030#16 = some ⟨"SYS_CopyBytes", 10, .copyBytes, -24⟩ ∧
    ((10 : Nat) : Int) ≤ -BitVec.toInt 0xF6#8 ∧ (24 : Int) ≤ Config.default.maxtP - BitVec.toInt 0xF6#8 ∧
    (∃ u, copyBytes 4 0x0300#16 0x0400#16 (put running 0x0300#16 [0x11#8, 0x22#8, 0x33#8, 0x44#8]) = .ok u) ∧
    (∃ u, copyBytes 0 0x0300#16 0x0400#16 running = .ok u) :=
  ⟨by decide, by decide, by decide, by decide, by decide, ⟨_, rfl⟩, ⟨_, rfl⟩⟩

/-- Apart; three bytes up over values (V-SYS-22); one byte up from a single value, the others without one until the copy
writes them; and a fourth byte without a value. -/
theorem witness_CopyBytesMoves : 4 ≤ 4 ∧
    (∀ i < 4, ∀ j < i, 0x0300#16 + BitVec.ofNat 16 i ≠ 0x0304#16 + BitVec.ofNat 16 j) ∧
    (∀ i < 4, (put running 0x0300#16 [0x01#8, 0x02#8, 0x03#8, 0x04#8, 0x05#8]).memRead
      (0x0300#16 + BitVec.ofNat 16 i) ≠ none) ∧ 0x0301#16 = 0x0300#16 + BitVec.ofNat 16 1 ∧
    (∀ i < 4, (put running 0x0300#16 [0x01#8]).memRead (0x0300#16 + BitVec.ofNat 16 i) ≠ none ∨
      ∃ j < i, 0x0300#16 + BitVec.ofNat 16 i = 0x0301#16 + BitVec.ofNat 16 j) ∧
    running.memRead (0x0300#16 + BitVec.ofNat 16 3) = none ∧
    (∀ j < 3, 0x0300#16 + BitVec.ofNat 16 3 ≠ 0x0304#16 + BitVec.ofNat 16 j) := by decide

theorem witness_CopyBytesMoves_result :
    ∃ u, copyBytes 4 0x0300#16 0x0301#16 (put running 0x0300#16 [0x01#8]) = .ok u := ⟨_, rfl⟩

/-- V-SYS-22: an ascending copy one byte up smears the first byte. -/
theorem test_copy_overlap_ascending : (match copyBytes 4 0x0300#16 0x0301#16
      (put running 0x0300#16 [0x01#8, 0x02#8, 0x03#8, 0x04#8, 0x05#8]) with
    | .ok u => u.readRun 5 0x0300#16
    | .error _ => []) = [0x01#8, 0x01#8, 0x01#8, 0x01#8, 0x01#8] := by decide

/-- A routine that adds the byte at 0x0300 to AC, stores it, and hands over to the latched instruction. -/
def addByteAt : NativeProgram :=
  .read 0x0300#16 fun v => .write 0x0301#16 v <| .writeScratch 2 0xA9#8 <| .writeSysfn 0xE000#16 <|
    .done ⟨0x0210#16, zextWord v, 0x0000#16, 0x00#8, 0x05#8, some .execute, -12⟩

theorem witness_NativeContract : (put running 0x0300#16 [0x37#8]).memRead 0x0300#16 = some 0x37#8 ∧
    running.memRead 0x0300#16 = none ∧
    (∃ v r, runNative addByteAt (put running 0x0300#16 [0x37#8]) = .ok (v, r)) ∧
    (∃ f, runNative addByteAt running = .error f) ∧
    (∃ v r, runRoutine ⟨"SYS_Multiply16", 6, .multiply16, -20⟩ running = .ok (v, r)) ∧
    (∃ f, runRoutine ⟨"SYS_CopyBytes", 10, .copyBytes, -24⟩
      (atSys 10 0x0208#16 0xE030#16 ⟨0x00#8, 0x03#8, 0x00#8, 0x04#8, 0x01#8, 0x00#8, 0x00#8, 0x00#8⟩) = .error f) :=
  ⟨by decide, by decide, ⟨_, _, rfl⟩, ⟨_, rfl⟩, ⟨_, _, rfl⟩, ⟨_, rfl⟩⟩

theorem witness_NativeContract_handOver :
    (⟨0, 0, 0, 0, 0, none, -1⟩ : NativeResult).handOver = none ∧
    (⟨0, 0, 0, 0, 0, some .fetch, -1⟩ : NativeResult).handOver = some .fetch ∧
    (⟨0, 0, 0, 0, 0, some .execute, -1⟩ : NativeResult).handOver = some .execute := by decide

/-- A configured routine reads, writes and hands over as 43_sys.md R215 lets it; a byte that holds no value stops it
(20_memory.md R62). -/
theorem test_native_program : (match runNative addByteAt (put running 0x0300#16 [0x37#8]) with
      | .ok (t, r) => some (t.ac, t.pc, t.sel, t.memRead 0x0301#16, t.ir, t.sysfn, t.tmp, r)
      | .error _ => none) =
      some (0x0037#16, 0x0210#16, 0x02#8, some 0x37#8, 0xA9#8, 0xE000#16, 0x05#8, -12) ∧
    (match runNative addByteAt running with | .ok _ => none | .error f => some f) = some .readUnwritten := ⟨rfl, rfl⟩

theorem witness_SysBudgetSafety : (atSys 6 0x0208#16 0xE020#16).run = .running ∧
    ∃ t, exec (.sys 0xFA#8) (atSys 6 0x0208#16 0xE020#16) = .next t ∧ t.run = .running := ⟨rfl, _, rfl, rfl⟩

/-- T = 1 is deferred, T = 2 is admitted: RTI_EXTRA is 2. -/
theorem witness_InterruptReturn : (atTicks 1).t - (atTicks 1).cfg.rtiExtra < 0 ∧
    0 ≤ (atTicks 2).t - (atTicks 2).cfg.rtiExtra ∧ running.insvc = false ∧
    (atTicks 2 { running with insvc := true }).insvc = true := by decide

/-- A vector of 0x0500, a vector of zero, and one whose high byte holds no value. -/
theorem witness_InterruptCheck :
    (put State.reset 0x01F6#16 [0x00#8, 0x05#8]).memRead (put State.reset 0x01F6#16 [0x00#8,
      0x05#8]).cfg.irqVectorAddr =
      some 0x00#8 ∧
    (put State.reset 0x01F6#16 [0x00#8, 0x05#8]).memRead (Config.default.irqVectorAddr + 1) = some 0x05#8 ∧
    mkWord 0x05#8 0x00#8 ≠ 0x0000#16 ∧ State.reset.insvc = false ∧ mkWord 0x00#8 0x00#8 = 0x0000#16 ∧
    { State.reset with insvc := true }.insvc = true ∧
    (put State.reset 0x01F6#16 [0x00#8]).memRead (Config.default.irqVectorAddr + 1) = none := by decide

theorem witness_InterruptRoundTrip :
    ∃ t u, (put (put State.reset 0x01F6#16 [0x00#8, 0x05#8]) 0x0500#16 [0x16#8]).run = .idle ∧
      runCommand .irqCheck (put (put State.reset 0x01F6#16 [0x00#8, 0x05#8]) 0x0500#16 [0x16#8]) = .next t ∧
      t.insvc = true ∧ runCommand (.startSlice (.cycles 46)) t = .next u ∧ u.memRead u.pc = some 0x16#8 ∧
      (u.cfg.rtiExtra : Int) ≤ u.t := ⟨_, _, rfl, rfl, rfl, rfl, rfl, by decide⟩

/-- The selector of a state after reset is legal: the last hypothesis of InterruptRoundTrip. -/
theorem witness_InterruptRoundTrip_selector :
    SelectorGood (put (put State.reset 0x01F6#16 [0x00#8, 0x05#8]) 0x0500#16 [0x16#8]) := ⟨.inl rfl, .inl rfl⟩

theorem witness_FetchDecodeCheapMedium : (sec [0xE8#8]).sel = 0x01#8 ∧
    secondaryTable .inx = some (0xE8#8, .inx, .implied) ∧ secondaryTable (.ldaImm 0x37#8) = some (0xA9#8, .lda,
      .imm) ∧
    secondaryTable (.beqRel 0x80#8) = some (0xF0#8, .beq, .rel) ∧
    secondaryTable (.ldaZp 0xFF#8) = some (0xA5#8, .lda, .zp 0xFF#8) ∧
    secondaryTable (.ldaZpX 0xFF#8) = some (0xB5#8, .lda, .zpX 0xFF#8) := by decide

theorem witness_FetchDecodeExpensive : (sec [0xAD#8]).sel = 0x01#8 ∧
    0 ≤ (atTicks 6 (sec [0xAD#8])).t - (atTicks 6 (sec [0xAD#8])).cfg.expExtraS ∧
    secondaryTable (.ldaAbs 0xFFFF#16) = some (0xAD#8, .lda, .abs 0xFFFF#16) ∧
    secondaryTable (.staAbsX 0xFFFF#16) = some (0x9D#8, .sta, .absX 0xFFFF#16) ∧
    secondaryTable (.staAbsY 0xFFFF#16) = some (0x99#8, .sta, .absY 0xFFFF#16) ∧
    secondaryTable (.ldaIndX 0xFF#8) = some (0xA1#8, .lda, .indX 0xFF#8) ∧
    secondaryTable (.ldaIndY 0xFF#8) = some (0xB1#8, .lda, .indY 0xFF#8) ∧
    (zeroPage.setIr 0xB1#8).memRead (mkWord 0x00#8 0xFF#8) = some 0xCD#8 ∧
    (zeroPage.setIr 0xB1#8).memRead (mkWord 0x00#8 (0xFF#8 + 1)) = some 0xAB#8 ∧
    (running.setIr 0xB1#8).memRead (mkWord 0x00#8 0xFF#8) = none := by decide

theorem witness_DecodeDeferral : (atTicks 5 (sec [0xAD#8])).sel = 0x01#8 ∧
    (atTicks 5 (sec [0xAD#8])).run = .running ∧
    (atTicks 5 (sec [0xAD#8])).t - (atTicks 5 (sec [0xAD#8])).cfg.expExtraS < 0 ∧
    secondaryTable (.ldaAbs 0x0400#16) = some (0xAD#8, .lda, .abs 0x0400#16) ∧ (Mode.abs 0x0400#16).cls = .expensive ∧
    (atTicks 5 (sec [0xAD#8])).memRead (atTicks 5 (sec [0xAD#8])).lr = some 0xAD#8 ∧
    ∃ u, exec (.ldaAbs 0x0400#16) (atTicks 5 (sec [0xAD#8])) = .next u ∧ u.run = .idle :=
  ⟨rfl, rfl, by decide, rfl, rfl, rfl, _, rfl, rfl⟩

/-- At Execute with a byte at AD, and with none: the hypotheses of the loads, stores, arithmetic, compare and branch
statements, with a row of each operation. -/
theorem witness_SecondaryLoads : (atExecute 0xA9#8).sel = 0x02#8 ∧
    (atExecute 0xA9#8).memRead (atExecute 0xA9#8).ad = some 0x7F#8 ∧
    (atExecuteEmpty 0xA9#8).memRead (atExecuteEmpty 0xA9#8).ad = none ∧
    secondaryTable (.ldaImm 0x37#8) = some (0xA9#8, .lda, .imm) ∧
    secondaryTable (.ldxImm 0x37#8) = some (0xA2#8, .ldx, .imm) ∧
    secondaryTable (.ldyImm 0x37#8) = some (0xA0#8, .ldy, .imm) := by decide

theorem witness_SecondaryStores : (atExecute 0x85#8).sel = 0x02#8 ∧
    secondaryTable (.staZp 0x50#8) = some (0x85#8, .sta, .zp 0x50#8) ∧
    secondaryTable (.stxZp 0x50#8) = some (0x86#8, .stx, .zp 0x50#8) ∧
    secondaryTable (.styZp 0x50#8) = some (0x84#8, .sty, .zp 0x50#8) ∧ 0x0401#16 ≠ (atExecute 0x85#8).ad := by decide

/-- A = 0x7F, m = 0x7F, C = 1: the sum is 0xFF, no carry, signed overflow. -/
theorem witness_AddSubWithCarry : (atExecute 0x69#8 (regs 0x8B#8 0x00#8 0x00#8 0x00#8 0x00#8)).sel = 0x02#8 ∧
    (atExecute 0x69#8).memRead (atExecute 0x69#8).ad = some 0x7F#8 ∧
    (atExecuteEmpty 0x69#8).memRead (atExecuteEmpty 0x69#8).ad = none ∧
    secondaryTable (.adcImm 0x01#8) = some (0x69#8, .adc, .imm) ∧
    secondaryTable (.sbcImm 0x01#8) = some (0xE9#8, .sbc, .imm) ∧
    0xFF#8 = loByte 0x037F#16 + 0x7F#8 + (if (0x8B#8).getLsbD 0 then 1 else 0) ∧
    0xCA#8 = (0x8B#8 &&& 0xBE#8) ||| 0x00#8 ||| 0x40#8 := by decide

theorem witness_OverflowAndBorrow : (0xFF#8 : Byte) = 0x7F#8 + 0x7F#8 + bitByte true ∧
    (0xFF#8 : Byte) = 0x00#8 + ~~~0x00#8 + bitByte false := by decide

theorem witness_Compare : (atExecute 0xC9#8).sel = 0x02#8 ∧
    (atExecute 0xC9#8).memRead (atExecute 0xC9#8).ad = some 0x7F#8 ∧
    (atExecuteEmpty 0xC9#8).memRead (atExecuteEmpty 0xC9#8).ad = none ∧
    secondaryTable (.cmpImm 0x37#8) = some (0xC9#8, .cmp, .imm) := by decide

theorem witness_RegisterOperations : (atExecute 0xE8#8).sel = 0x02#8 ∧
    (0x00#8 : Byte) = (regs 0x00#8 0x00#8 0x00#8 0xFF#8 0x00#8).x + 1 ∧
    (0xFF#8 : Byte) = (atExecute 0x88#8).y - 1 := by decide

theorem witness_SecondaryStack : (atExecute 0x48#8).sel = 0x02#8 ∧
    0x0010#16 ≠ mkWord 0x00#8 ((atExecute 0x48#8).sp - 1) ∧
    (latched 0x68#8 0x0000#16 zeroPage).memRead (mkWord 0x00#8 (latched 0x68#8 0x0000#16 zeroPage).sp) = some 0xAB#8 ∧
    (atExecute 0x68#8).memRead (mkWord 0x00#8 (atExecute 0x68#8).sp) = none := by decide

theorem witness_FlagsStack : (atExecute 0x08#8).sel = 0x02#8 ∧
    (0x3E#8 : Byte) = (0x00#8 &&& 0x80#8) ||| (0x8E#8 &&& 0x40#8) ||| 0x30#8 ||| (0x8E#8 &&& 0x0C#8) |||
      (if (0x00#8 : Byte) = 0x00#8 then 0x02#8 else 0x00#8) ||| (0x8E#8 &&& 0x01#8) ∧
    (latched 0x28#8 0x0000#16 zeroPage).memRead (mkWord 0x00#8 (latched 0x28#8 0x0000#16 zeroPage).sp) = some 0xAB#8 ∧
    (atExecute 0x28#8).memRead (mkWord 0x00#8 (atExecute 0x28#8).sp) = none := by decide

theorem witness_FlagsRoundTrip : ∃ t u, (atExecute 0x08#8).sel = 0x02#8 ∧
    State.inScratchWindow (atExecute 0x08#8).cfg (mkWord 0x00#8 ((atExecute 0x08#8).sp - 1)) = false ∧
    exec .php (atExecute 0x08#8) = .next t ∧
    exec .plp { t with sel := 0x02#8, scratch := { t.scratch with b3 := 0x00#8, b4 := 0x01#8, b5 := 0x80#8 } } = .next u :=
  ⟨_, _, rfl, rfl, rfl, rfl⟩

theorem witness_SecondaryBranches : (atExecute 0xF0#8).sel = 0x02#8 ∧
    (atExecute 0xF0#8).memRead (atExecute 0xF0#8).ad = some 0x7F#8 ∧
    (atExecuteEmpty 0xF0#8).memRead (atExecuteEmpty 0xF0#8).ad = none ∧
    secondaryTable (.beqRel 0x7F#8) = some (0xF0#8, .beq, .rel) ∧
    secondaryTable (.bplRel 0x80#8) = some (0x10#8, .bpl, .rel) ∧
    (True ↔ (atExecute 0xF0#8).qz = 0x00#8) ∧ (False ↔ (atExecute 0xF0#8).qz ≠ 0x00#8) := by decide

theorem witness_JumpNopBreak : (atExecute 0x00#8).sel = 0x02#8 ∧ (atExecute 0x00#8).run = .running := by decide

theorem witness_FastPathEntry : (atExecute 0xA5#8).sel = 0x02#8 ∧ (atExecute 0xA5#8).run = .running ∧
    secondaryTable (.ldaZp 0x00#8) = some (0xA5#8, .lda, .zp 0x00#8) ∧
    secondaryTable (.ldaZp 0xFF#8) = some (0xA5#8, .lda, .zp 0xFF#8) ∧
    Instr.wellFormed (.ldaZp 0x00#8) = true ∧ (atExecute 0xA5#8).ir = 0xA5#8 := by decide

/-- A running state at a store, for the invariants: it meets them, and its step answers a next state. -/
theorem witness_StepKeepsMemoryGood : MemoryGood (prim [0x05#8, 0x31#8]) ∧ ∃ t, step (prim [0x05#8,
      0x31#8]) = .next t :=
  ⟨⟨by decide, by decide⟩, _, rfl⟩

theorem witness_StepKeepsSelectorGood : SelectorGood (atExecute 0x00#8) ∧ ∃ t, step (atExecute 0x00#8) = .next t :=
  ⟨⟨.inr (.inr rfl), .inl rfl⟩, _, rfl⟩

theorem witness_StepKeepsTicksGood : (atExecute 0x08#8).cfg.TicksWf ∧ TicksGood { atExecute 0x08#8 with t := 0 } ∧
    { atExecute 0x08#8 with t := 0 }.run = .running ∧
    interp { atExecute 0x08#8 with t := 0 }.sel = some .secondary ∧
    ∃ t, step { atExecute 0x08#8 with t := 0 } = .next t :=
  ⟨⟨by decide, by decide, by decide, by decide, by decide, by decide, by decide, by decide, by decide, by decide,
    by decide, by decide⟩, ⟨by decide, by decide, by decide⟩, rfl, rfl, _, rfl⟩

theorem witness_StepProtects : (prim [0x16#8] { running with insvc := true }).run = .running ∧
    (∃ t, step (prim [0x16#8] { running with insvc := true }) = .next t ∧ t.insvc = false) ∧
    (∀ slot ∈ running.cfg.slots, ∀ id, slot.routine ≠ .native id) := by
  refine ⟨rfl, ⟨_, rfl, rfl⟩, fun slot hs id => ?_⟩
  fin_cases hs <;> simp

theorem witness_SecondaryStepPreserves : (sec [0xE8#8]).run = .running ∧ (sec [0xE8#8]).sel ≠ 0x00#8 ∧
    (∃ t, step (sec [0xE8#8]) = .next t) ∧ (atExecute 0xE8#8).sel ≠ 0x00#8 ∧
    ∃ t, step (atExecute 0xE8#8) = .next t := ⟨rfl, by decide, ⟨_, rfl⟩, by decide, _, rfl⟩

theorem witness_NonStoringKeepsMemory : storing (.ldi 0x05#8) = false ∧ storing .inx = false ∧
    (∃ t, exec (.ldi 0x05#8) running = .next t) ∧ ∃ t, exec .inx (atExecute 0xE8#8) = .next t :=
  ⟨rfl, rfl, ⟨_, rfl⟩, _, rfl⟩

end Sys2Proof.Tests
end

section
/-! The register windows (20_memory.md R62, R63, R66): what MemRead and MemWrite do at each kind of address, stated
once through the value of the address; then the same at the addresses that the configuration names. -/

namespace Sys2Proof

/-! ### Where the addresses of a configuration lie (00_scope.md R7) -/

section Addresses

open Machine

variable {c : Config}

theorem inSysfnWindow_iff {addr : Word} :
    State.inSysfnWindow c addr = true ↔ addr.toNat = c.sysfnAddr ∨ addr.toNat = c.sysfnAddr + 1 := by
  rw [State.inSysfnWindow, decide_eq_true_iff]
  omega

theorem inScratchWindow_of_toNat {addr : Word} {k : Nat} (hk : k < 8) (h : addr.toNat = c.scratchAddr + k) :
    State.inScratchWindow c addr = true := by
  rw [State.inScratchWindow, decide_eq_true_iff]
  omega

/-- The two windows have no address in common. -/
theorem Config.AddressesWf.not_inSysfnWindow (hc : c.AddressesWf) {addr : Word} {k : Nat} (hk : k < 8)
    (h : addr.toNat = c.scratchAddr + k) : ¬ State.inSysfnWindow c addr = true := by
  rw [inSysfnWindow_iff]
  rcases hc.disjoint with hbelow | habove <;> omega

/-- A SYSFN address is inside the zero page, so it is not reduced mod 2^16. -/
theorem Config.AddressesWf.sysfn_toNat (hc : c.AddressesWf) {k : Nat} (hk : k < 2) :
    (BitVec.ofNat 16 (c.sysfnAddr + k)).toNat = c.sysfnAddr + k :=
  Nat.mod_eq_of_lt (by have := hc.sysfnWindow; omega)

/-- A SCRATCH address is inside the zero page, so it is not reduced mod 2^16. -/
theorem Config.AddressesWf.scratch_toNat (hc : c.AddressesWf) {k : Nat} (hk : k < 8) :
    (BitVec.ofNat 16 (c.scratchAddr + k)).toNat = c.scratchAddr + k :=
  Nat.mod_eq_of_lt (by have := hc.scratchWindow; omega)

end Addresses

end Sys2Proof

namespace Sys2Proof.Machine

/-! ### MemRead and MemWrite at each kind of address -/

namespace State

section Access

variable {s : State} {addr : Word}

theorem memRead_sysfnLow (h : addr.toNat = s.cfg.sysfnAddr) : s.memRead addr = some (loByte s.sysfn) := by
  rw [memRead, if_pos (inSysfnWindow_iff.mpr (.inl h)), if_pos h]

theorem memRead_sysfnHigh (h : addr.toNat = s.cfg.sysfnAddr + 1) : s.memRead addr = some (hiByte s.sysfn) := by
  rw [memRead, if_pos (inSysfnWindow_iff.mpr (.inr h)), if_neg (by omega)]

theorem memRead_scratch (hc : s.cfg.AddressesWf) {k : Nat} (hk : k < 8) (h : addr.toNat = s.cfg.scratchAddr + k) :
    s.memRead addr = some (s.scratch.get k) := by
  rw [memRead, if_neg (hc.not_inSysfnWindow hk h), if_pos (inScratchWindow_of_toNat hk h), h, Nat.add_sub_cancel_left]

theorem memRead_outside (h : OutsideWindows s.cfg addr) : s.memRead addr = Memory.read s.mem addr.toNat := by
  obtain ⟨hsysfn, hscratch⟩ := h
  simp [memRead, hsysfn, hscratch]

theorem memWrite_sysfnLow (v : Byte) (h : addr.toNat = s.cfg.sysfnAddr) :
    s.memWrite addr v = s.setSysfn (mkWord (hiByte s.sysfn) v) := by
  rw [memWrite, if_pos (inSysfnWindow_iff.mpr (.inl h)), if_pos h]

theorem memWrite_sysfnHigh (v : Byte) (h : addr.toNat = s.cfg.sysfnAddr + 1) :
    s.memWrite addr v = s.setSysfn (mkWord v (loByte s.sysfn)) := by
  rw [memWrite, if_pos (inSysfnWindow_iff.mpr (.inr h)), if_neg (by omega)]

theorem memWrite_scratch (hc : s.cfg.AddressesWf) (v : Byte) {k : Nat} (hk : k < 8)
    (h : addr.toNat = s.cfg.scratchAddr + k) : s.memWrite addr v = s.setScratch (s.scratch.set k v) := by
  rw [memWrite, if_neg (hc.not_inSysfnWindow hk h), if_pos (inScratchWindow_of_toNat hk h), h, Nat.add_sub_cancel_left]

theorem memWrite_outside (v : Byte) (h : OutsideWindows s.cfg addr) :
    s.memWrite addr v = s.setMem (Memory.write s.mem addr.toNat v) := by
  obtain ⟨hsysfn, hscratch⟩ := h
  simp [memWrite, hsysfn, hscratch]

end Access

end State

/-- Settles O13: the rule for each kind of address, at the addresses that the constraints keep inside the zero page
and apart. -/
theorem registerWindows : Obligations.RegisterWindows := by
  unfold Obligations.RegisterWindows
  intro s hc
  have hlow := hc.sysfn_toNat (k := 0) (by decide)
  have hhigh := hc.sysfn_toNat (k := 1) (by decide)
  refine ⟨State.memRead_sysfnLow hlow, State.memRead_sysfnHigh hhigh,
    fun k hk => State.memRead_scratch hc hk (hc.scratch_toNat hk), fun _ hout => State.memRead_outside hout,
    fun v => ⟨?sysfnLow, ?sysfnHigh, ?scratch, ?outside⟩⟩
  case sysfnLow => exact State.memWrite_sysfnLow v hlow
  case sysfnHigh => exact State.memWrite_sysfnHigh v hhigh
  case scratch => exact fun k hk => State.memWrite_scratch hc v hk (hc.scratch_toNat hk)
  case outside => exact fun _ hout => State.memWrite_outside v hout

end Sys2Proof.Machine
end

section
/-! The reserved encodings of the primary set (30_encoding.md R95; 41_primary.md R174; 42_extended.md R197): the
values that the two opcode maps and the SYS operand leave out, what the decoder makes of them, and the step that
meets them. -/

namespace Sys2Proof

/-! ### The values left out -/

/-- The primary opcode map has no row below 0x01 and none from PFX on. -/
theorem primaryRow_none_iff (op : Byte) : primaryRow op = none ↔ op.toNat = 0x00 ∨ 0x17 ≤ op.toNat := by
  unfold primaryRow
  split
  case h_23 => simp only [true_iff, imp_false] at *; omega
  all_goals simp only [reduceCtorEq, false_iff]; omega

/-- The extended opcode map has no row below 0x01 and none from 0x07 on. -/
theorem extendedRow_none_iff (xop : Byte) : extendedRow xop = none ↔ xop.toNat = 0x00 ∨ 0x07 ≤ xop.toNat := by
  unfold extendedRow
  split
  case h_7 => simp only [true_iff, imp_false] at *; omega
  all_goals simp only [reduceCtorEq, false_iff]; omega

/-- The reserved SYS operands are the bytes whose signed value is positive (30_encoding.md R107). -/
theorem sysOperandLegal_false_iff (d : Byte) : sysOperandLegal d = false ↔ 1 ≤ d.toNat ∧ d.toNat ≤ 0x7F := by
  rw [sysOperandLegal, decide_eq_false_iff_not, signed8, BitVec.toInt_eq_toNat_cond]
  have := d.isLt
  split <;> omega

/-! ### The decoder on them, whatever bytes follow -/

theorem decodePrimary_illegalOpcode {op : Byte} (h : op = 0x00#8 ∨ 0x18 ≤ op.toNat) (rest : List Byte) :
    decodePrimary (op :: rest) = .error (.illegalPrimaryOpcode op) := by
  have hpfx : op ≠ pfxOpcode := by
    rintro rfl
    exact absurd h (by decide)
  have hrow : primaryRow op = none := (primaryRow_none_iff op).mpr (by bv_omega)
  rw [decodePrimary, if_neg hpfx, hrow]

/-- After PFX the extended page decodes. -/
theorem decodePrimary_pfx (rest : List Byte) : decodePrimary (pfxOpcode :: rest) = decodeExtended rest := by
  rw [decodePrimary, if_pos rfl]

theorem decodeExtended_illegalOpcode {xop : Byte} (h : xop = 0x00#8 ∨ 0x07 ≤ xop.toNat) (rest : List Byte) :
    decodeExtended (xop :: rest) = .error (.illegalExtendedOpcode xop) := by
  have hrow : extendedRow xop = none := (extendedRow_none_iff xop).mpr (by bv_omega)
  rw [decodeExtended, hrow]

/-- SYS is the one row whose operand is screened. -/
theorem decodePrimary_sys (d : Byte) (rest : List Byte) :
    decodePrimary (0x15#8 :: d :: rest) = refuseReservedOperand (.sys d, rest) := rfl

theorem decodePrimary_sysReserved {d : Byte} (h : sysOperandLegal d = false) (rest : List Byte) :
    decodePrimary (0x15#8 :: d :: rest) = .error (.sysOperandReserved d) := by
  rw [decodePrimary_sys, refuseReservedOperand, h, if_neg Bool.false_ne_true]

end Sys2Proof

namespace Sys2Proof.Machine

/-! ### The step that meets them -/

/-- A primary step whose bytes do not decode stops with the fault of the decode; T has no part in it. -/
theorem step_of_decodePrimary_error {s : State} {e : DecodeError} (hrun : s.run = .running) (hsel : s.sel = selP)
    (h : decodePrimary (s.readRun 4 s.pc) = .error e) : step s = .fault (decodeFault e) := by
  have hfetch : fetch s = .stop (decodeFault e) := by rw [fetch, if_pos hsel, fetchPrimary, h]
  rw [step_running hrun, dispatchStep, hfetch]

theorem readRun_of_two {s : State} {n : Nat} {addr : Word} {b c : Byte} (hb : s.memRead addr = some b)
    (hc : s.memRead (addr + 1) = some c) : s.readRun (n + 2) addr = b :: c :: s.readRun n (addr + 1 + 1) := by
  rw [readRun_cons hb, readRun_cons hc]

/-- Settles O6: the bytes at PC begin with a reserved encoding, which the decoder refuses by its name. -/
theorem reservedEncodingsFault : Obligations.ReservedEncodingsFault := by
  unfold Obligations.ReservedEncodingsFault
  intro s hrun hsel
  refine ⟨fun op hop hres => ?primary, fun xop hpfx hxop hres => ?extended, fun d hsys hd hlo hhi => ?sysOperand⟩
  case primary =>
    refine step_of_decodePrimary_error hrun hsel (e := .illegalPrimaryOpcode op) ?_
    rw [readRun_cons hop, decodePrimary_illegalOpcode hres]
  case extended =>
    refine step_of_decodePrimary_error hrun hsel (e := .illegalExtendedOpcode xop) ?_
    rw [readRun_of_two hpfx hxop]
    exact (decodePrimary_pfx _).trans (decodeExtended_illegalOpcode hres _)
  case sysOperand =>
    refine step_of_decodePrimary_error hrun hsel (e := .sysOperandReserved d) ?_
    rw [readRun_of_two hsys hd]
    exact decodePrimary_sysReserved ((sysOperandLegal_false_iff d).mpr ⟨hlo, hhi⟩) _

end Sys2Proof.Machine
end

section
/-! START_SLICE (40_scheduler_dispatch.md R122 to R124): one equation for each thing it can find, a reserved SEL, a
given N, UNBOUNDED; and that the N which UNBOUNDED substitutes is legal with entry value TMAX. -/

namespace Sys2Proof

/-- W_T bits hold at least T = 0, whatever the width (00_scope.md R7). -/
theorem Config.tmax_nonneg (c : Config) : 0 ≤ c.tmax :=
  Int.sub_nonneg_of_le (one_le_pow₀ (by decide))

theorem Config.tmax_default : Config.default.tmax = 127 := by decide

end Sys2Proof

namespace Sys2Proof.Machine

variable {s : State} {c : Config} {i : Interp}

/-! ### The entry value and the legal budgets -/

theorem entryTicks_eq (n : Int) : entryTicks c i n = (n - overhead c i) / 2 - reserve c i := rfl

theorem budgetLegal_iff {n : Int} : budgetLegal c i n = true ↔
    overhead c i + 2 * reserve c i ≤ n ∧ n ≤ overhead c i + 2 * (c.tmax + reserve c i) + 1 :=
  decide_eq_true_iff

theorem budgetCycles_unbounded_nonneg : 0 ≤ budgetCycles c i .unbounded := by
  have := c.tmax_nonneg
  rw [budgetCycles]
  omega

/-- The N of UNBOUNDED meets the precondition that is not tested on it (40_scheduler_dispatch.md R124, R137). -/
theorem budgetLegal_unbounded : budgetLegal c i (budgetCycles c i .unbounded) = true := by
  have := c.tmax_nonneg
  rw [budgetLegal_iff, budgetCycles]
  omega

/-- The N of UNBOUNDED is even past the overhead, so R122 gives back TMAX without rounding. -/
theorem entryTicks_unbounded : entryTicks c i (budgetCycles c i .unbounded) = c.tmax := by
  rw [entryTicks_eq, budgetCycles]
  omega

/-! ### START_SLICE -/

theorem interp_eq_none (h0 : s.sel ≠ selP) (h1 : s.sel ≠ selSFetch) (h2 : s.sel ≠ selSExec) :
    interp s.sel = none := by
  rw [interp, if_neg h0, if_neg (not_or.mpr ⟨h1, h2⟩)]

theorem startSlice_reserved (b : Budget) (h : interp s.sel = none) : startSlice b s = .fault .selReserved := by
  rw [startSlice, h]

theorem startSlice_cycles (n : Nat) (h : interp s.sel = some i) :
    startSlice (.cycles n) s =
      if budgetLegal s.cfg i n = true then
        .next { s with t := entryTicks s.cfg i n, run := .running, sliceN := n }
      else .fault .budgetPrecondition := by
  simp [startSlice, h, budgetCycles]

theorem startSlice_unbounded (h : interp s.sel = some i) : startSlice .unbounded s = .next (armSlice i s) := by
  simp only [startSlice, h, true_or, if_true, entryTicks_unbounded]
  rfl

/-- UNBOUNDED is the START_SLICE of the N it substitutes (40_scheduler_dispatch.md R124). -/
theorem startSlice_unbounded_eq_cycles (h : interp s.sel = some i) :
    startSlice .unbounded s = startSlice (.cycles (budgetCycles s.cfg i .unbounded).toNat) s := by
  rw [startSlice_unbounded h, startSlice_cycles _ h, Int.toNat_of_nonneg budgetCycles_unbounded_nonneg,
    if_pos budgetLegal_unbounded, entryTicks_unbounded]
  rfl

/-- Settles O11: each clause is an equation of START_SLICE above, the legal ranges of the defaults are the bounds of
R123 evaluated. -/
theorem sliceEntry : Obligations.SliceEntry := by
  unfold Obligations.SliceEntry
  refine ⟨fun s n i hi => ?cycles, fun s b h0 h1 h2 => ?reserved, fun c => ⟨rfl, rfl, rfl, rfl⟩,
    fun n => ⟨?legalPrimary, ?legalSecondary⟩, fun s i hi => ⟨?unbounded, ?sameAsLargest⟩, by decide, by decide⟩
  case cycles => exact (startSlice_cycles n hi).trans (if_congr budgetLegal_iff rfl rfl)
  case reserved => exact startSlice_reserved b (interp_eq_none h0 h1 h2)
  case legalPrimary =>
    rw [budgetLegal_iff, Config.tmax_default]
    change (14 + 2 * 14 : Int) ≤ n ∧ (n : Int) ≤ 14 + 2 * (127 + 14) + 1 ↔ _
    omega
  case legalSecondary =>
    rw [budgetLegal_iff, Config.tmax_default]
    change (16 + 2 * 15 : Int) ≤ n ∧ (n : Int) ≤ 16 + 2 * (127 + 15) + 1 ↔ _
    omega
  case unbounded => exact startSlice_unbounded hi
  case sameAsLargest => exact startSlice_unbounded_eq_cycles hi

end Sys2Proof.Machine
end

section
/-! The host's access to memory (40_scheduler_dispatch.md R136): HOST_READ and HOST_WRITE are MemRead and MemWrite of
one byte, so the rules of the two operations carry over. -/

namespace Sys2Proof.Machine

variable {s : State} {addr : Word}

theorem hostRead_of_some {v : Byte} (h : s.memRead addr = some v) :
    hostRead addr s = .next (s.setAnswer (some (.byteRead v))) := by
  rw [hostRead, State.readByte_of_some h]

theorem hostRead_of_none (h : s.memRead addr = none) : hostRead addr s = .fault .readUnwritten := by
  rw [hostRead, State.readByte_of_none h]

/-- Settles O12: a HOST_WRITE completes in the state that MemWrite leaves, where the byte reads back, every other
byte and every other register is as before. -/
theorem hostAccess : Obligations.HostAccess := by
  unfold Obligations.HostAccess
  intro s addr
  refine ⟨fun v hv => ?read, fun hnone => ?unwritten, fun v => ⟨s.memWrite addr v, ?writes, ?frame⟩⟩
  case read => exact hostRead_of_some hv
  case unwritten => exact hostRead_of_none hnone
  case writes => rfl
  case frame =>
    exact ⟨rfl, State.memRead_memWrite_same s addr v, fun _ hb => State.memRead_memWrite_other s v hb,
      State.memWrite_registers s addr v⟩

end Sys2Proof.Machine
end

section
/-! The primary loads, stores, sums, branches and stack instructions (41_primary.md R151 to R165, R168, R169): first
what the operations they share do, then one equation per shape of instruction. -/

namespace Sys2Proof

/-! ### The two bytes of a word as numbers -/

theorem toNat_loByte (w : Word) : (loByte w).toNat = w.toNat % 256 := by
  simp [loByte]

theorem toNat_hiByte (w : Word) : (hiByte w).toNat = w.toNat / 256 := by
  have := w.isLt
  rw [hiByte, BitVec.extractLsb'_toNat, Nat.shiftRight_eq_div_pow]
  omega

theorem toNat_mkWord (hi lo : Byte) : (mkWord hi lo).toNat = 256 * hi.toNat + lo.toNat := by
  have hsplit := congrArg BitVec.toNat (Machine.loByte_mkWord hi lo)
  have hsplit' := congrArg BitVec.toNat (Machine.hiByte_mkWord hi lo)
  rw [toNat_loByte] at hsplit
  rw [toNat_hiByte] at hsplit'
  omega

theorem toNat_bitByte (c : Bool) : (bitByte c).toNat = c.toNat := by cases c <;> rfl

theorem mkWord_ne_of_lo_ne {hi lo lo' : Byte} (h : lo ≠ lo') : mkWord hi lo ≠ mkWord hi lo' := fun e =>
  h (by simpa using congrArg loByte e)

end Sys2Proof

namespace Sys2Proof.Machine

/-! ### The sums (00_scope.md R10; 41_primary.md R157, R158) -/

theorem toNat_addByte (a b : Byte) (c : Bool) : (addByte a b c).toNat = (a.toNat + b.toNat + c.toNat) % 256 := by
  simp [addByte, toNat_bitByte]

/-- The carry read off the three sign bits is the carry out of the byte addition. -/
theorem carry8_addByte (a b : Byte) (c : Bool) :
    carry8 a b (addByte a b c) = decide (256 ≤ a.toNat + b.toNat + c.toNat) := by
  have ha := a.isLt
  have hb := b.isLt
  have hc := c.toNat_le
  have hsigns : carry8 a b (addByte a b c) =
      (decide (128 ≤ a.toNat) && decide (128 ≤ b.toNat) ||
        (decide (128 ≤ a.toNat) || decide (128 ≤ b.toNat)) && !decide (128 ≤ (addByte a b c).toNat)) := by
    rw [carry8, BitVec.getLsbD_or, BitVec.getLsbD_and, BitVec.getLsbD_and, BitVec.getLsbD_or, BitVec.getLsbD_not]
    simp only [getLsbD_seven]
    rfl
  rw [hsigns, toNat_addByte, Bool.eq_iff_iff]
  simp only [Bool.or_eq_true, Bool.and_eq_true, Bool.not_eq_true', decide_eq_true_eq, decide_eq_false_iff_not]
  omega

/-- Two byte additions joined by the carry are the addition of the words mod 2^16. -/
theorem toNat_addBytes (v w : Word) (c : Bool) :
    (addBytes v w c).toNat = (v.toNat + w.toNat + c.toNat) % 65536 := by
  have hv := v.isLt
  have hw := w.isLt
  have hc := c.toNat_le
  rw [addBytes, carry8_addByte, toNat_mkWord, toNat_addByte, toNat_addByte, toNat_loByte, toNat_loByte, toNat_hiByte,
    toNat_hiByte]
  by_cases hcarry : 256 ≤ v.toNat % 256 + w.toNat % 256 + c.toNat
  · rw [decide_eq_true hcarry, Bool.toNat_true]
    omega
  · rw [decide_eq_false hcarry, Bool.toNat_false]
    omega

theorem addWord_eq_add (v w : Word) : addWord v w = v + w := by
  apply BitVec.eq_of_toNat_eq
  rw [addWord, toNat_addBytes, BitVec.toNat_add]
  rfl

theorem subWord_eq_sub (v w : Word) : subWord v w = v - w := by
  have hw := w.isLt
  apply BitVec.eq_of_toNat_eq
  rw [subWord, toNat_addBytes, BitVec.toNat_sub, BitVec.toNat_not, Bool.toNat_true]
  congr 1
  omega

/-! ### The conditions on AC (41_primary.md R172) -/

/-- S is the sign bit of AC. -/
theorem acNegative_eq_getLsbD (v : Word) : acNegative v = v.getLsbD 15 := by
  simp [acNegative, hiByte]

theorem acNegative_iff (v : Word) : acNegative v = true ↔ v.toInt < 0 := by
  rw [← decide_eq_true_iff (p := v.toInt < 0), ← BitVec.msb_eq_toInt, BitVec.msb_eq_getLsbD_last, acNegative_eq_getLsbD]

theorem acZero_iff_bytes (v : Word) : acZero v = true ↔ hiByte v = 0x00#8 ∧ loByte v = 0x00#8 := by
  simp [acZero]

/-- Two zero bytes are the word zero. -/
theorem acZero_iff_eq_zero (v : Word) : acZero v = true ↔ v = 0 := by
  rw [acZero_iff_bytes]
  constructor
  · rintro ⟨hhi, hlo⟩
    rw [← mkWord_bytes v, hhi, hlo]
    rfl
  · rintro rfl
    exact ⟨rfl, rfl⟩

theorem acZero_iff (v : Word) : acZero v = true ↔ v.toInt = 0 := by
  rw [acZero_iff_eq_zero, ← BitVec.toInt_inj]
  rfl

/-! ### The shape of a primary step -/

section Step

variable {s : State} {len : Word} {c : Nat} {effect : State → Except Fault State}

theorem primaryStep_of_ok {u : State} (h : effect (s.setPc (s.pc + len)) = .ok u) :
    primaryStep len c effect s = .next (u.charge c) := by
  rw [primaryStep, h]
  rfl

/-- An effect that cannot stop. -/
theorem primaryStep_pure (len : Word) (c : Nat) (f : State → State) (s : State) :
    primaryStep len c (fun u => .ok (f u)) s = .next ((f (s.setPc (s.pc + len))).charge c) := rfl

theorem primaryStep_of_error {f : Fault} (h : effect (s.setPc (s.pc + len)) = .error f) :
    primaryStep len c effect s = .fault f := by
  rw [primaryStep, h]
  rfl

end Step

/-! ### Reads of two bytes, by what the bytes hold (20_memory.md R65, R67) -/

theorem not_none_of_some {x y : Option Byte} {v w : Byte} (hx : x = some v) (hy : y = some w) :
    ¬(x = none ∨ y = none) := by
  simp [hx, hy]

namespace State

variable {s : State} {a : Byte}

/-- MemRead does not see PC. -/
@[simp] theorem memRead_setPc (s : State) (w addr : Word) : (s.setPc w).memRead addr = s.memRead addr :=
  memRead_congr rfl rfl rfl rfl addr

theorem zpRead2_of_some {lo hi : Byte} (hlo : s.memRead (mkWord 0x00#8 a) = some lo)
    (hhi : s.memRead (mkWord 0x00#8 (a + 1)) = some hi) : s.zpRead2 a = .ok (mkWord hi lo) := by
  rcases s.zpRead2_cases a with ⟨lo', hi', hlo', hhi', e⟩ | ⟨hnone, -⟩
  · cases hlo.symm.trans hlo'
    cases hhi.symm.trans hhi'
    exact e
  · exact absurd hnone (not_none_of_some hlo hhi)

theorem zpRead2_of_none (h : s.memRead (mkWord 0x00#8 a) = none ∨ s.memRead (mkWord 0x00#8 (a + 1)) = none) :
    s.zpRead2 a = .error .readUnwritten := by
  rcases s.zpRead2_cases a with ⟨lo, hi, hlo, hhi, -⟩ | ⟨-, e⟩
  · exact absurd h (not_none_of_some hlo hhi)
  · exact e

theorem pull16_of_some {lo hi : Byte} (hlo : s.memRead (mkWord 0x00#8 s.sp) = some lo)
    (hhi : s.memRead (mkWord 0x00#8 (s.sp + 1)) = some hi) : s.pull16 = .ok (mkWord hi lo, s.setSp (s.sp + 2)) := by
  rcases s.pull16_cases with ⟨lo', hi', hlo', hhi', e⟩ | ⟨hnone, -⟩
  · cases hlo.symm.trans hlo'
    cases hhi.symm.trans hhi'
    exact e
  · exact absurd hnone (not_none_of_some hlo hhi)

theorem pull16_of_none (h : s.memRead (mkWord 0x00#8 s.sp) = none ∨ s.memRead (mkWord 0x00#8 (s.sp + 1)) = none) :
    s.pull16 = .error .readUnwritten := by
  rcases s.pull16_cases with ⟨lo, hi, hlo, hhi, -⟩ | ⟨-, e⟩
  · exact absurd h (not_none_of_some hlo hhi)
  · exact e

end State

/-! ### Instructions that read a word of the zero page into AC: LDW, ADDW, SUBW -/

section WordOperand

variable {s : State} {a : Byte}

/-- PC <- PCn, then AC <- f(AC, ZpRead2(a)), charged: what the three have in common. -/
def zpWordStep (a : Byte) (c : Nat) (f : Word → Word → Word) (s : State) : Host.Outcome State Fault Refusal :=
  primaryStep 2 c (fun u => u.zpRead2 a >>= fun w => .ok (u.setAc (f u.ac w))) s

theorem exec_ldw (a : Byte) (s : State) : exec (.ldw a) s = zpWordStep a s.cfg.costP.ldw (fun _ w => w) s := rfl

theorem exec_addw (a : Byte) (s : State) : exec (.addw a) s = zpWordStep a s.cfg.costP.addw (fun v w => v + w) s := by
  simp only [← addWord_eq_add]
  rfl

theorem exec_subw (a : Byte) (s : State) : exec (.subw a) s = zpWordStep a s.cfg.costP.subw (fun v w => v - w) s := by
  simp only [← subWord_eq_sub]
  rfl

theorem zpWordStep_of_some {lo hi : Byte} (hlo : s.memRead (mkWord 0x00#8 a) = some lo)
    (hhi : s.memRead (mkWord 0x00#8 (a + 1)) = some hi) (c : Nat) (f : Word → Word → Word) :
    zpWordStep a c f s = .next { s with pc := s.pc + 2, ac := f s.ac (mkWord hi lo), t := s.t - c } := by
  refine primaryStep_of_ok (u := (s.setPc (s.pc + 2)).setAc (f s.ac (mkWord hi lo))) ?_
  rw [State.zpRead2_of_some (by simpa using hlo) (by simpa using hhi), do_ok_eq]
  rfl

theorem zpWordStep_of_none (h : s.memRead (mkWord 0x00#8 a) = none ∨ s.memRead (mkWord 0x00#8 (a + 1)) = none)
    (c : Nat) (f : Word → Word → Word) : zpWordStep a c f s = .fault .readUnwritten := by
  refine primaryStep_of_error ?_
  rw [State.zpRead2_of_none (by simpa using h), do_error_eq]

end WordOperand

/-- Settles O18: ADDW and SUBW are the sum and the difference mod 2^16 of the word read, and the byte sums of the rules
are these. -/
theorem addSubWord : Obligations.AddSubWord := by
  unfold Obligations.AddSubWord
  refine ⟨fun a lo hi s hlo hhi => ⟨?addw, ?subw⟩, fun v w => ⟨?sum, ?difference⟩,
    fun a s hnone => ⟨?addwStops, ?subwStops⟩, fun a => ⟨rfl, rfl⟩, rfl, rfl⟩
  case addw => rw [exec_addw, zpWordStep_of_some hlo hhi]
  case subw => rw [exec_subw, zpWordStep_of_some hlo hhi]
  case sum => rw [← addWord_eq_add]; simp [addWord, addBytes, addByte, bitByte]
  case difference => rw [← subWord_eq_sub]; simp [subWord, addBytes, addByte, bitByte]
  case addwStops => rw [exec_addw, zpWordStep_of_none hnone]
  case subwStops => rw [exec_subw, zpWordStep_of_none hnone]

/-! ### Branches -/

theorem branchTo_eq (b : Bool) (target : Word) (s : State) :
    branchTo b target s = { s with pc := if b then target else s.pc } := by
  cases b <;> rfl

/-- A branch of three bytes whose test of AC decides `p`. -/
theorem branchStep_next {cond : Word → Bool} {p : Prop} [Decidable p] {s : State} (h : cond s.ac = true ↔ p)
    (c : Nat) (target : Word) :
    primaryStep 3 c (fun u => .ok (branchTo (cond u.ac) target u)) s =
      .next { s with pc := if p then target else s.pc + 3, t := s.t - c } := by
  rw [primaryStep_pure, branchTo_eq]
  simp only [State.setPc_ac, State.setPc_pc, h]
  rfl

/-- Settles O21: each branch is `branchStep_next` of its condition, by the sign and the zero test of AC. -/
theorem primaryBranches : Obligations.PrimaryBranches := by
  unfold Obligations.PrimaryBranches
  refine ⟨fun w s => ⟨rfl, ?beq, ?bne, ?blt, ?bge, ?bgt, ?ble⟩, fun lo hi => ?encodings,
    fun v => ⟨acNegative_eq_getLsbD v, acZero_iff_bytes v, acNegative_iff v, acZero_iff v⟩, by decide⟩
  case beq => exact branchStep_next (acZero_iff s.ac) _ w
  case bne => exact branchStep_next (cond := fun v => !acZero v) (by simp [← acZero_iff]) _ w
  case blt => exact branchStep_next (acNegative_iff s.ac) _ w
  case bge => exact branchStep_next (cond := fun v => !acNegative v) (by simp [← Int.not_lt, ← acNegative_iff]) _ w
  case bgt =>
    refine branchStep_next (cond := fun v => !acNegative v && !acZero v) ?_ _ w
    rw [Bool.and_eq_true, Bool.not_eq_true', Bool.not_eq_true', ← Bool.not_eq_true, ← Bool.not_eq_true, acNegative_iff,
      acZero_iff]
    omega
  case ble =>
    refine branchStep_next (cond := fun v => acNegative v || acZero v) ?_ _ w
    rw [Bool.or_eq_true, acNegative_iff, acZero_iff]
    omega
  case encodings => simp [encode]

/-! ### Immediate and byte loads -/

/-- Settles O15: neither instruction reads memory, so each is its effect charged. -/
theorem immediateLoads : Obligations.ImmediateLoads := by
  unfold Obligations.ImmediateLoads
  refine ⟨fun d s => ⟨rfl, ?ldi⟩, fun lo hi s => ⟨?encoding, ?ldwi⟩, rfl, rfl⟩
  case ldi => exact primaryStep_pure 2 s.cfg.costP.ldi (State.setAc · (zextWord d)) s
  case encoding => simp [encode]
  case ldwi => exact primaryStep_pure 3 s.cfg.costP.ldwi (State.setAc · (mkWord hi lo)) s

theorem exec_ld_of_some {a v : Byte} {s : State} (h : s.memRead (mkWord 0x00#8 a) = some v) :
    exec (.ld a) s = .next { s with pc := s.pc + 2, ac := mkWord 0x00#8 v, t := s.t - s.cfg.costP.ld } := by
  change execLd a s = _
  rw [execLd]
  refine primaryStep_of_ok (u := (s.setPc (s.pc + 2)).setAc (mkWord 0x00#8 v)) ?_
  rw [zextWord_eq_mkWord, State.readByte_of_some (by simpa using h), do_ok_eq, zextWord_eq_mkWord]

theorem exec_ld_of_none {a : Byte} {s : State} (h : s.memRead (mkWord 0x00#8 a) = none) :
    exec (.ld a) s = .fault .readUnwritten := by
  change execLd a s = _
  rw [execLd]
  refine primaryStep_of_error ?_
  rw [zextWord_eq_mkWord, State.readByte_of_none (by simpa using h), do_error_eq]

/-- Settles O16: the two outcomes of the byte read, and of the word read. -/
theorem zeroPageLoads : Obligations.ZeroPageLoads := by
  unfold Obligations.ZeroPageLoads
  refine ⟨fun a s => ⟨rfl, fun v hv => ?ld, fun hnone => ?ldStops⟩,
    fun a s => ⟨rfl, fun lo hi hlo hhi => ?ldw, fun hnone => ?ldwStops⟩, rfl, rfl⟩
  case ld => exact exec_ld_of_some hv
  case ldStops => exact exec_ld_of_none hnone
  case ldw => rw [exec_ldw, zpWordStep_of_some hlo hhi]
  case ldwStops => rw [exec_ldw, zpWordStep_of_none hnone]

/-! ### Stores: ST, STW, PUSH -/

namespace State

variable {s t : State} {p q : Word} {v w : Byte}

/-- Two writes at different addresses: both bytes read back, every other byte is as before. Stated for a state `t` that
MemRead does not tell from the one they leave. -/
theorem memRead_after_two_writes (hpq : p ≠ q)
    (h : ∀ addr, t.memRead addr = ((s.memWrite p v).memWrite q w).memRead addr) :
    t.memRead p = some v ∧ t.memRead q = some w ∧ ∀ b, b ≠ p → b ≠ q → t.memRead b = s.memRead b := by
  refine ⟨?first, ?second, fun b hp hq => ?other⟩
  case first => rw [h, memRead_memWrite_other _ _ hpq, memRead_memWrite_same]
  case second => rw [h, memRead_memWrite_same]
  case other => rw [h, memRead_memWrite_other _ _ hq, memRead_memWrite_other _ _ hp]

/-- Two writes change memory and the two window registers only. -/
theorem two_memWrites_registers (s : State) (p q : Word) (v w : Byte) :
    { (s.memWrite p v).memWrite q w with mem := s.mem, sysfn := s.sysfn, scratch := s.scratch } = s :=
  calc { (s.memWrite p v).memWrite q w with mem := s.mem, sysfn := s.sysfn, scratch := s.scratch }
    _ = { s.memWrite p v with mem := s.mem, sysfn := s.sysfn, scratch := s.scratch } :=
      congrArg (fun u : State => { u with mem := s.mem, sysfn := s.sysfn, scratch := s.scratch })
        (memWrite_registers (s.memWrite p v) q w)
    _ = s := memWrite_registers s p v

end State

/-- What ST leaves. -/
def afterSt (a : Byte) (s : State) : State :=
  { s.memWrite (mkWord 0x00#8 a) (loByte s.ac) with pc := s.pc + 2, t := s.t - s.cfg.costP.st }

/-- What STW leaves. -/
def afterStw (a : Byte) (s : State) : State :=
  { (s.memWrite (mkWord 0x00#8 a) (loByte s.ac)).memWrite (mkWord 0x00#8 (a + 1)) (hiByte s.ac) with
    pc := s.pc + 2, t := s.t - s.cfg.costP.stw }

/-- What PUSH leaves. -/
def afterPush (s : State) : State :=
  { (s.memWrite (mkWord 0x00#8 (s.sp - 2)) (loByte s.lr)).memWrite (mkWord 0x00#8 (s.sp - 1)) (hiByte s.lr) with
    pc := s.pc + 1, sp := s.sp - 2, t := s.t - s.cfg.costP.push }

theorem exec_st (a : Byte) (s : State) : exec (.st a) s = .next (afterSt a s) := by
  change execSt a s = _
  rw [execSt, primaryStep_pure, State.memWrite_setPc, zextWord_eq_mkWord]
  simp [afterSt, State.charge, State.setT, State.setPc]

theorem exec_stw (a : Byte) (s : State) : exec (.stw a) s = .next (afterStw a s) := by
  change execStw a s = _
  rw [execStw, primaryStep_pure, State.zpWrite2, State.memWrite_setPc, State.memWrite_setPc, zextWord_eq_mkWord,
    zextWord_eq_mkWord]
  simp [afterStw, State.charge, State.setT, State.setPc]

theorem exec_push (s : State) : exec .push s = .next (afterPush s) := by
  change execPush s = _
  rw [execPush, primaryStep_pure, State.push16, State.memWrite_setSp, State.memWrite_setSp, State.memWrite_setPc,
    State.memWrite_setPc]
  simp [afterPush, State.charge, State.setT, State.setPc, State.setSp, State.stackAddr, stackPage]

theorem memRead_afterSt (a : Byte) (s : State) (addr : Word) :
    (afterSt a s).memRead addr = (s.memWrite (mkWord 0x00#8 a) (loByte s.ac)).memRead addr :=
  State.memRead_congr rfl rfl rfl rfl addr

theorem memRead_afterStw (a : Byte) (s : State) :
    (afterStw a s).memRead (mkWord 0x00#8 a) = some (loByte s.ac) ∧
    (afterStw a s).memRead (mkWord 0x00#8 (a + 1)) = some (hiByte s.ac) ∧
    ∀ b, b ≠ mkWord 0x00#8 a → b ≠ mkWord 0x00#8 (a + 1) → (afterStw a s).memRead b = s.memRead b :=
  State.memRead_after_two_writes (mkWord_ne_of_lo_ne (by bv_omega)) (State.memRead_congr rfl rfl rfl rfl)

theorem memRead_afterPush (s : State) :
    (afterPush s).memRead (mkWord 0x00#8 (s.sp - 2)) = some (loByte s.lr) ∧
    (afterPush s).memRead (mkWord 0x00#8 (s.sp - 1)) = some (hiByte s.lr) ∧
    ∀ b, b ≠ mkWord 0x00#8 (s.sp - 2) → b ≠ mkWord 0x00#8 (s.sp - 1) → (afterPush s).memRead b = s.memRead b :=
  State.memRead_after_two_writes (mkWord_ne_of_lo_ne (by bv_omega)) (State.memRead_congr rfl rfl rfl rfl)

/-- Settles O17: ST is one write of memory and STW two, at different addresses; the rest is what a write leaves. -/
theorem zeroPageStores : Obligations.ZeroPageStores := by
  unfold Obligations.ZeroPageStores
  refine ⟨fun a s => ⟨rfl, afterSt a s, exec_st a s, rfl, ?same, fun b hb => ?other, ?stRegisters⟩,
    fun a s => ⟨rfl, afterStw a s, exec_stw a s, rfl, ?stw⟩, rfl, rfl⟩
  case same => rw [memRead_afterSt, State.memRead_memWrite_same]
  case other => rw [memRead_afterSt, State.memRead_memWrite_other s _ hb]
  case stRegisters =>
    exact congrArg (fun u : State => { u with pc := s.pc + 2, t := s.t - s.cfg.costP.st })
      (State.memWrite_registers s (mkWord 0x00#8 a) (loByte s.ac))
  case stw =>
    obtain ⟨hlow, hhigh, hother⟩ := memRead_afterStw a s
    refine ⟨hlow, hhigh, hother, ?stwRegisters⟩
    exact congrArg (fun u : State => { u with pc := s.pc + 2, t := s.t - s.cfg.costP.stw })
      (State.two_memWrites_registers s (mkWord 0x00#8 a) (mkWord 0x00#8 (a + 1)) (loByte s.ac) (hiByte s.ac))

/-! ### The stack: POP, and the round trip (20_memory.md R67) -/

theorem exec_pop_of_some {s : State} {lo hi : Byte} (hlo : s.memRead (mkWord 0x00#8 s.sp) = some lo)
    (hhi : s.memRead (mkWord 0x00#8 (s.sp + 1)) = some hi) :
    exec .pop s =
      .next { s with pc := s.pc + 1, lr := mkWord hi lo, sp := s.sp + 2, t := s.t - s.cfg.costP.pop } := by
  change execPop s = _
  rw [execPop]
  refine primaryStep_of_ok (u := ((s.setPc (s.pc + 1)).setSp (s.sp + 2)).setLr (mkWord hi lo)) ?_
  rw [State.pull16_of_some (by simpa using hlo) (by simpa using hhi), do_ok_eq]
  rfl

theorem exec_pop_of_none {s : State}
    (h : s.memRead (mkWord 0x00#8 s.sp) = none ∨ s.memRead (mkWord 0x00#8 (s.sp + 1)) = none) :
    exec .pop s = .fault .readUnwritten := by
  change execPop s = _
  rw [execPop]
  refine primaryStep_of_error ?_
  rw [State.pull16_of_none (by simpa using h), do_error_eq]

/-- POP after a PUSH takes LR and SP back, whatever LR holds meanwhile. -/
theorem exec_pop_afterPush (s : State) (v : Word) :
    exec .pop { afterPush s with lr := v } =
      .next { afterPush s with
        pc := s.pc + 2, lr := s.lr, sp := s.sp, t := (afterPush s).t - s.cfg.costP.pop } := by
  obtain ⟨hlow, hhigh, -⟩ := memRead_afterPush s
  have hsame : ∀ addr, ({ afterPush s with lr := v } : State).memRead addr = (afterPush s).memRead addr :=
    State.memRead_congr rfl rfl rfl rfl
  have habove : s.sp - 2 + 1 = s.sp - 1 := by bv_omega
  have hback : s.sp - 2 + 2 = s.sp := by bv_omega
  have hnext : s.pc + 1 + 1 = s.pc + 2 := by bv_omega
  have hcfg : (afterPush s).cfg = s.cfg := by simp [afterPush]
  have hsp : (afterPush s).sp = s.sp - 2 := rfl
  have hpc : (afterPush s).pc = s.pc + 1 := rfl
  rw [← hsp] at hlow
  rw [← habove, ← hsp] at hhigh
  rw [exec_pop_of_some ((hsame _).trans hlow) ((hsame _).trans hhigh)]
  simp only [mkWord_bytes, hsp, hpc, hback, hnext, hcfg]

/-- Settles O23: PUSH is two writes at different addresses with SP lowered, which POP undoes; POP follows the two
outcomes of its word read. -/
theorem pushPop : Obligations.PushPop := by
  unfold Obligations.PushPop
  refine ⟨fun s => ⟨rfl, afterPush s, exec_push s, rfl, ?push⟩,
    fun s => ⟨rfl, fun lo hi hlo hhi => exec_pop_of_some hlo hhi, fun hnone => exec_pop_of_none hnone⟩, rfl, rfl⟩
  obtain ⟨hlow, hhigh, hother⟩ := memRead_afterPush s
  refine ⟨hlow, hhigh, hother, ?registers, fun v => exec_pop_afterPush s v⟩
  exact congrArg (fun u : State => { u with pc := s.pc + 1, sp := s.sp - 2, t := s.t - s.cfg.costP.push })
    (State.two_memWrites_registers s (mkWord 0x00#8 (s.sp - 2)) (mkWord 0x00#8 (s.sp - 1)) (loByte s.lr) (hiByte s.lr))

end Sys2Proof.Machine
end

section
/-! The Extended-Opcode Page (42_extended.md R191 to R196): the effect NEGW, ADDI and SUBI share and the one BNEL and
BEQL share, each stated once. -/

namespace Sys2Proof.Machine

/-! ### Arithmetic on AC -/

/-- A primary or extended instruction whose effect is a function of AC alone. -/
theorem primaryStep_setAc (len : Word) (c : Nat) (f : Word → Word) (s : State) :
    primaryStep len c (fun u => .ok (u.setAc (f u.ac))) s =
      .next { s with pc := s.pc + len, ac := f s.ac, t := s.t - c } :=
  primaryStep_pure len c (fun u => u.setAc (f u.ac)) s

theorem exec_negw (s : State) :
    exec .negw s = .next { s with pc := s.pc + 2, ac := 0 - s.ac, t := s.t - s.cfg.costX.negw } :=
  primaryStep_setAc 2 s.cfg.costX.negw (fun v => 0 - v) s

theorem exec_addi (b : Byte) (s : State) :
    exec (.addi b) s =
      .next { s with pc := s.pc + 3, ac := s.ac + mkWord 0x00#8 b, t := s.t - s.cfg.costX.addi } := by
  rw [← addWord_eq_add s.ac, ← zextWord_eq_mkWord]
  exact primaryStep_setAc 3 s.cfg.costX.addi (fun v => addWord v (zextWord b)) s

theorem exec_subi (b : Byte) (s : State) :
    exec (.subi b) s =
      .next { s with pc := s.pc + 3, ac := s.ac - mkWord 0x00#8 b, t := s.t - s.cfg.costX.subi } := by
  rw [← subWord_eq_sub s.ac, ← zextWord_eq_mkWord]
  exact primaryStep_setAc 3 s.cfg.costX.subi (fun v => subWord v (zextWord b)) s

/-- Settles O24: each instruction is its function of AC, the byte sums of ADDI and SUBI being the sum and the
difference mod 2^16. -/
theorem extendedArithmetic : Obligations.ExtendedArithmetic := by
  unfold Obligations.ExtendedArithmetic
  exact ⟨fun s => ⟨rfl, exec_negw s⟩, fun b s => ⟨rfl, exec_addi b s⟩, fun b s => ⟨rfl, exec_subi b s⟩, rfl, rfl, rfl⟩

/-! ### Branches relative to PCn -/

/-- A branch of four bytes whose test of AC decides `p`: the displacement is added to PCn. -/
theorem longBranchStep_next {cond : Word → Bool} {p : Prop} [Decidable p] {s : State} (h : cond s.ac = true ↔ p)
    (c : Nat) (rel : Word) :
    primaryStep 4 c (fun u => .ok (branchTo (cond u.ac) (u.pc + rel) u)) s =
      .next { s with pc := if p then s.pc + 4 + rel else s.pc + 4, t := s.t - c } := by
  rw [primaryStep_pure, branchTo_eq]
  simp only [State.setPc_ac, State.setPc_pc, h]
  rfl

/-- The escape byte, the opcode, then the displacement low byte first. -/
theorem encode_longBranches (lo hi : Byte) :
    encode (.bral (mkWord hi lo)) = [0x17#8, 0x04#8, lo, hi] ∧
    encode (.bnel (mkWord hi lo)) = [0x17#8, 0x05#8, lo, hi] ∧
    encode (.beql (mkWord hi lo)) = [0x17#8, 0x06#8, lo, hi] := by
  simp [encode, pfxOpcode]

/-- Settles O25: each branch is `longBranchStep_next` of its condition, which is constant for BRAL and the zero test of
AC for BNEL and BEQL. -/
theorem longBranches : Obligations.LongBranches := by
  unfold Obligations.LongBranches
  refine ⟨fun w s => ⟨?bral, ?bnel, ?beql⟩, encode_longBranches, rfl, rfl, rfl⟩
  case bral => exact longBranchStep_next (cond := fun _ => true) (p := True) (by simp) s.cfg.costX.bral w
  case bnel =>
    have hcond : (!acZero s.ac) = true ↔ s.ac ≠ 0 := by simpa using not_congr (acZero_iff_eq_zero s.ac)
    exact longBranchStep_next (cond := fun v => !acZero v) hcond _ w
  case beql => exact longBranchStep_next (acZero_iff_eq_zero s.ac) _ w

end Sys2Proof.Machine
end

section
/-! SYS (43_sys.md R210 to R220): one equation for each way the instruction can begin, a reserved operand, a deferral
or an admission; one for the call that completes; then the two routines that only write registers. -/

namespace Sys2Proof.Machine

/-! ### Reserved, deferred or admitted -/

theorem sysOperandLegal_iff (d : Byte) : sysOperandLegal d = true ↔ d.toInt ≤ 0 :=
  decide_eq_true_iff

section Sys

variable {d : Byte} {s : State}

theorem exec_sys_reserved (h : 0 < d.toInt) : exec (.sys d) s = .fault .sysOperandReserved := by
  change execSys d s = _
  rw [execSys, if_neg (mt (sysOperandLegal_iff d).mp (by omega))]

theorem exec_sys_deferred (hd : d.toInt ≤ 0) (h : s.t + d.toInt < 0) : exec (.sys d) s = .next (s.defer .sys) := by
  change execSys d s = _
  rw [execSys, if_pos ((sysOperandLegal_iff d).mpr hd), signed8, if_pos h]

theorem exec_sys_admitted (hd : d.toInt ≤ 0) (h : 0 ≤ s.t + d.toInt) :
    exec (.sys d) s = callSlot d.toInt (s.setPc (s.pc + 2)) := by
  change execSys d s = _
  rw [execSys, if_pos ((sysOperandLegal_iff d).mpr hd), signed8, if_neg (by omega)]

/-- An admitted SYS that completes has ended no slice: the routine does not write RUN. -/
theorem exec_sys_admitted_run {t : State} (h : 0 ≤ s.t + d.toInt) (he : exec (.sys d) s = .next t) :
    t.run = s.run := by
  obtain ⟨-, ⟨hdefer, -⟩ | ⟨-, slot, -, -, -, v, r, hroutine, -, -, rfl⟩⟩ := execSys_next he
  · exact absurd h (Int.not_le.mpr hdefer)
  · exact (runRoutine_frame hroutine).run

/-! ### The call that completes -/

variable {slot : Slot}

/-- A call whose declaration covers its slot and whose report is within 1 to MAXT_P - D leaves the routine's state with
T <- T + R (43_sys.md R210, R217). -/
theorem exec_sys_completes {v : State} {r : Int} (hd : d.toInt ≤ 0) (ht : 0 ≤ s.t + d.toInt)
    (hslot : slotOf s.cfg s.sysfn = some slot) (hextra : (slot.extra : Int) ≤ -d.toInt)
    (hroutine : runRoutine slot (s.setPc (s.pc + 2)) = .ok (v, r)) (hmin : 1 ≤ -r)
    (hmax : -r ≤ s.cfg.maxtP - d.toInt) : exec (.sys d) s = .next (v.setT (s.t + r)) := by
  have hframe := runRoutine_frame hroutine
  have hcfg : v.cfg = s.cfg := hframe.cfg
  have hticks : v.t = s.t := hframe.ticks
  have hfound : slotOf (s.setPc (s.pc + 2)).cfg (s.setPc (s.pc + 2)).sysfn = some slot := hslot
  rw [exec_sys_admitted hd ht, callSlot, hfound]
  simp only [if_neg (Int.not_lt.mpr hextra), hroutine, hcfg, hticks, if_pos (And.intro hmin hmax)]

/-! ### SYS_Placeholder and SYS_RunSecondary -/

theorem runRoutine_placeholder (h : slot.routine = .placeholder) (u : State) :
    runRoutine slot u = .ok (u, slot.report) := by
  rw [runRoutine, h, placeholderRoutine]

theorem runRoutine_runSecondary (h : slot.routine = .runSecondary) (u : State) :
    runRoutine slot u = .ok ((u.setLr u.ac).setSel selSFetch, slot.report) := by
  rw [runRoutine, h, runSecondaryRoutine]

end Sys

/-! ### The slice SYS_RunSecondary ends -/

/-- A step that leaves another interpreter ends the slice SWITCHED, before T is looked at (40_scheduler_dispatch.md
R130, R137). -/
theorem finishStep_switched {s t : State} {i j : Interp} (hs : interp s.sel = some i) (ht : interp t.sel = some j)
    (hrun : t.run = .running) (hne : j ≠ i) : finishStep s (.next t) = .next (t.exitSlice .switched) := by
  rw [finishStep, if_neg (by simp [hrun]), closeStep, ht]
  simp only [hs, ne_eq, Option.some.injEq, hne, not_false_eq_true, if_true]

/-! ### The obligations -/

/-- Settles O26: the deferral and the reserved operand are the equations of SYS; a SYS that is admitted keeps RUN. -/
theorem sysDeferral : Obligations.SysDeferral := by
  unfold Obligations.SysDeferral
  refine ⟨fun d s => ⟨rfl, fun hd ht => ?deferred, fun hd => ?reserved⟩, fun d s t _ ht hrun he => ?admitted⟩
  case deferred => exact exec_sys_deferred hd ht
  case reserved => exact exec_sys_reserved hd
  case admitted => exact (exec_sys_admitted_run ht he).trans hrun

/-- Settles O29: each call is `exec_sys_completes` of its routine; SYS_RunSecondary leaves SEL = 0x01, so the step ends
the slice. -/
theorem sysPlaceholderAndRunSecondary : Obligations.SysPlaceholderAndRunSecondary := by
  unfold Obligations.SysPlaceholderAndRunSecondary
  refine ⟨fun d s slot hd ht hslot hextra hroutine hreport hmax => ?placeholder, by decide,
    fun d s slot hd ht hslot hextra hroutine hreport hmax hrun hsel => ?runSecondary⟩
  case placeholder =>
    have hran := hreport ▸ runRoutine_placeholder hroutine (s.setPc (s.pc + 2))
    exact exec_sys_completes hd ht hslot hextra hran (by decide) hmax
  case runSecondary =>
    have hran := hreport ▸ runRoutine_runSecondary hroutine (s.setPc (s.pc + 2))
    have hexec : exec (.sys d) s = .next { s with pc := s.pc + 2, lr := s.ac, sel := 0x01#8, t := s.t - 12 } :=
      exec_sys_completes hd ht hslot hextra hran (by decide) hmax
    have hprimary : interp s.sel = some .primary := by rw [hsel]; rfl
    refine ⟨hexec, ?_⟩
    rw [hexec]
    exact finishStep_switched hprimary (j := .secondary) rfl hrun (by decide)

end Sys2Proof.Machine
end

section
/-! Fetch plus Decode (44_secondary.md R241 to R253): one equation for a decode that finds an effective address, one
for the implied modes, one for a decode that defers; then the fetch of an opcode whose decode defers. -/

namespace Sys2Proof.Machine

/-! ### Admission (44_secondary.md R242, R243) -/

section Decode

variable {i : Instr} {op : Byte} {o : Operation} {m : Mode} {s : State}

theorem expensiveNotAdmitted_iff : expensiveNotAdmitted s = true ↔ s.t - s.cfg.expExtraS < 0 :=
  decide_eq_true_iff

theorem decodeDeferred_eq_false_of_cls (h : m.cls ≠ .expensive) : decodeDeferred s m.cls = false := by
  rw [decodeDeferred, beq_eq_false_iff_ne.mpr h, Bool.false_and]

theorem decodeDeferred_eq_false_of_admitted (h : 0 ≤ s.t - s.cfg.expExtraS) : decodeDeferred s m.cls = false := by
  rw [decodeDeferred, Bool.eq_false_iff.mpr (mt expensiveNotAdmitted_iff.mp (by omega)), Bool.and_false]

theorem exec_decode_deferred (hrow : secondaryTable i = some (op, o, m)) (hsel : s.sel = 0x01#8)
    (hm : m.cls = .expensive) (ht : s.t - s.cfg.expExtraS < 0) : exec i s = .next (s.defer .decode) := by
  have hdefer : decodeDeferred s m.cls = true := by
    rw [decodeDeferred, hm, expensiveNotAdmitted_iff.mpr ht]
    rfl
  rw [exec_at_fetch hrow hsel, fetchDecode, if_pos hdefer]

/-! ### A decode that goes on -/

/-- A decode that finds an address latches it in AD; LR passes the opcode and the operand bytes. -/
theorem exec_decode_of_address {addr : Word} (hrow : secondaryTable i = some (op, o, m)) (hsel : s.sel = 0x01#8)
    (hd : decodeDeferred s m.cls = false)
    (ha : effectiveAddress ((s.setLr (s.lr + 1)).setIr op) m = .ok (some addr)) :
    exec i s = .next { s with
      lr := s.lr + (1 + m.operandBytes), sel := 0x02#8, t := s.t - decodeCost s.cfg m.cls,
      scratch := { s.scratch with b0 := loByte addr, b1 := hiByte addr, b2 := op } } := by
  rw [exec_at_fetch hrow hsel, fetchDecode_of_address hd ha, latched_state, BitVec.add_assoc]

theorem exec_decode_implied (hrow : secondaryTable i = some (op, o, .implied)) (hsel : s.sel = 0x01#8) :
    exec i s = .next { s with
      lr := s.lr + 1, scratch := { s.scratch with b2 := op }, sel := 0x02#8, t := s.t - s.cfg.fdCost.cheap } := by
  have hlr : s.lr + 1 + Mode.implied.operandBytes = s.lr + 1 := BitVec.add_zero _
  rw [exec_at_fetch hrow hsel,
    fetchDecode_of_address (addr := none) (decodeDeferred_eq_false_of_cls (by decide)) rfl, hlr]
  rfl

theorem exec_decode_of_address_error (hrow : secondaryTable i = some (op, o, m)) (hsel : s.sel = 0x01#8)
    (hd : decodeDeferred s m.cls = false)
    (ha : effectiveAddress ((s.setLr (s.lr + 1)).setIr op) m = .error .readUnwritten) :
    exec i s = .fault .readUnwritten := by
  rw [exec_at_fetch hrow hsel, fetchDecode, if_neg (by simp [hd])]
  dsimp only
  rw [ha, do_error_eq]
  rfl

/-- Settles O38: the effective address of each mode, none of which reads memory or can defer. -/
theorem fetchDecodeCheapMedium : Obligations.FetchDecodeCheapMedium := by
  unfold Obligations.FetchDecodeCheapMedium
  refine ⟨fun i op o s hsel hrow => exec_decode_implied hrow hsel, fun i op o m s hsel hm hrow => ?operandByte, rfl,
    fun i op b o s hsel hrow => ?zeroPage, fun i op b o s hsel hrow => ?zeroPageX, rfl⟩
  case operandByte =>
    rcases hm with rfl | rfl <;>
      exact exec_decode_of_address hrow hsel (decodeDeferred_eq_false_of_cls (by decide)) rfl
  case zeroPage =>
    have hlatched := exec_decode_of_address hrow hsel (decodeDeferred_eq_false_of_cls (by simp [Mode.cls])) rfl
    rwa [loByte_zextWord, hiByte_zextWord] at hlatched
  case zeroPageX =>
    have hlatched := exec_decode_of_address hrow hsel (decodeDeferred_eq_false_of_cls (by simp [Mode.cls])) rfl
    rwa [loByte_zextWord, hiByte_zextWord] at hlatched

/-! ### The indirect modes: the pointer (20_memory.md R65, R77) -/

/-- MemRead does not see LR, so Decode reads the pointer as it reads once IR alone is written. -/
theorem memRead_setLr_setIr (s : State) (w addr : Word) (op : Byte) :
    ((s.setLr w).setIr op).memRead addr = (s.setIr op).memRead addr :=
  State.memRead_congr rfl rfl rfl rfl addr

/-- The pointer of both indirect modes is read at one zero-page byte, `b + X` or `b`. -/
theorem effectiveAddress_indirect {b q : Byte} (w : Word) (op : Byte)
    (hm : (m = .indX b ∧ q = b + s.x) ∨ (m = .indY b ∧ q = b)) :
    effectiveAddress ((s.setLr w).setIr op) m = (((s.setLr w).setIr op).zpRead2 q >>= fun ptr =>
      .ok (some (if m = .indX b then ptr else ptr + zextWord s.y))) := by
  rcases hm with ⟨rfl, rfl⟩ | ⟨rfl, rfl⟩
  · simp only [if_true]
    rfl
  · simp only [reduceCtorEq, if_false]
    rfl

/-- Settles O39: the address of the absolute modes, which read no memory, and the two outcomes of the pointer read of
the indirect modes. -/
theorem fetchDecodeExpensive : Obligations.FetchDecodeExpensive := by
  unfold Obligations.FetchDecodeExpensive
  refine ⟨fun i op o m w ad s hsel ht hrow hm => ?absolute, rfl, rfl, fun i op b q o m s hsel ht hrow hm =>
    ⟨fun lo hi ad hlo hhi had => ?indirect, fun hnone => ?unwritten⟩⟩
  case absolute =>
    have hd : decodeDeferred s m.cls = false := decodeDeferred_eq_false_of_admitted ht
    simp only [← zextWord_eq_mkWord] at hm
    rcases hm with ⟨rfl, rfl⟩ | ⟨rfl, rfl⟩ | ⟨rfl, rfl⟩ <;> exact exec_decode_of_address hrow hsel hd rfl
  case indirect =>
    have hread : ((s.setLr (s.lr + 1)).setIr op).zpRead2 q = .ok (mkWord hi lo) :=
      State.zpRead2_of_some ((memRead_setLr_setIr ..).trans hlo) ((memRead_setLr_setIr ..).trans hhi)
    have haddr : effectiveAddress ((s.setLr (s.lr + 1)).setIr op) m = .ok (some ad) := by
      rw [effectiveAddress_indirect _ op hm, hread, do_ok_eq, had, ← zextWord_eq_mkWord]
    have hlatched := exec_decode_of_address hrow hsel (decodeDeferred_eq_false_of_admitted ht) haddr
    rcases hm with ⟨rfl, -⟩ | ⟨rfl, -⟩ <;> exact hlatched
  case unwritten =>
    have hread : ((s.setLr (s.lr + 1)).setIr op).zpRead2 q = .error .readUnwritten :=
      State.zpRead2_of_none (by simpa only [memRead_setLr_setIr] using hnone)
    refine exec_decode_of_address_error hrow hsel (decodeDeferred_eq_false_of_admitted ht) ?_
    rw [effectiveAddress_indirect _ op hm, hread, do_error_eq]

/-! ### The fetch of an expensive opcode (44_secondary.md R241) -/

/-- Fetch knows an instruction of expensive class by its opcode. -/
theorem opcodeExpensive_of_cls (hrow : secondaryTable i = some (op, o, m)) (hm : m.cls = .expensive) :
    opcodeExpensive op = true := by
  cases i <;> simp only [secondaryTable, reduceCtorEq, Option.some.injEq, Prod.mk.injEq] at hrow <;>
    obtain ⟨rfl, rfl, rfl⟩ := hrow <;> first | rfl | cases hm

/-- An instruction whose table row has this opcode and a mode of expensive class. -/
def ExpensiveRow (op : Byte) (i : Instr) : Prop :=
  ∃ o m, secondaryTable i = some (op, o, m) ∧ m.cls = .expensive

/-- The rows of an expensive opcode: whatever the operand is, the instruction is of expensive class. -/
theorem expensiveRow_of_row {row : OpRow} (hop : opcodeExpensive op = true) (h : secondaryRow op = some row) :
    (∃ f, row = .op1 f ∧ ∀ b, ExpensiveRow op (f b)) ∨ (∃ f, row = .op2 f ∧ ∀ w, ExpensiveRow op (f w)) := by
  unfold secondaryRow at h
  split at h <;> rename_i hn <;> cases h <;> obtain rfl := byte_eq_of_toNat hn <;>
    first
    | (cases hop; done)
    | exact .inl ⟨_, rfl, fun _ => ⟨_, _, rfl, rfl⟩⟩
    | exact .inr ⟨_, rfl, fun _ => ⟨_, _, rfl, rfl⟩⟩

theorem expensiveRow_of_decode {bytes rest : List Byte} (hop : opcodeExpensive op = true)
    (h : decodeSecondary (op :: bytes) = .ok (i, rest)) : ExpensiveRow op i := by
  cases hrow : secondaryRow op with
  | none => simp [opcodeExpensive, hrow] at hop
  | some row =>
    rw [decodeSecondary, hrow] at h
    rcases expensiveRow_of_row hop hrow with ⟨f, rfl, hf⟩ | ⟨f, rfl, hf⟩
    · rcases OpRow.readOperand_ok h with ⟨h0, -⟩ | ⟨g, b, h1, rfl, -⟩ | ⟨g, lo, hi, h2, -⟩
      · cases h0
      · cases h1; exact hf b
      · cases h2
    · rcases OpRow.readOperand_ok h with ⟨h0, -⟩ | ⟨g, b, h1, -⟩ | ⟨g, lo, hi, h2, rfl, -⟩
      · cases h0
      · cases h1
      · cases h2; exact hf _

/-- An expensive opcode that is not admitted: Fetch finds an instruction of expensive class, or, where an operand byte
holds no value, the deferral itself. -/
theorem fetchSecondary_expensive (hmem : s.memRead s.lr = some op) (hop : opcodeExpensive op = true)
    (ht : s.t - s.cfg.expExtraS < 0) :
    fetchSecondary s = .deferDecode ∨ ∃ i, fetchSecondary s = .instr i ∧ ExpensiveRow op i := by
  rw [fetchSecondary, hmem]
  cases hdec : decodeSecondary (op :: (s.setIr op).readRun 2 (s.lr + 1)) with
  | error e =>
    refine .inl ?_
    simp only [hdec, hop, expensiveNotAdmitted_iff.mpr ht, Bool.and_self, if_true]
  | ok r =>
    obtain ⟨i, rest⟩ := r
    refine .inr ⟨i, ?_, expensiveRow_of_decode hop hdec⟩
    simp only [hdec]

/-! ### The deferral -/

theorem finishStep_defer (s : State) (r : DeferReason) : finishStep s (.next (s.defer r)) = .next (s.defer r) := by
  rw [finishStep, if_pos (State.defer_run s r)]

theorem step_decode_deferred (hrun : s.run = .running) (hsel : s.sel = 0x01#8) (hmem : s.memRead s.lr = some op)
    (hop : opcodeExpensive op = true) (ht : s.t - s.cfg.expExtraS < 0) : step s = .next (s.defer .decode) := by
  have hfetch : fetch s = fetchSecondary s := by simp [fetch, hsel, selP, selSFetch]
  rw [step_running hrun, dispatchStep, hfetch]
  rcases fetchSecondary_expensive hmem hop ht with hdefer | ⟨j, hinstr, o, m, hrow, hm⟩
  · rw [hdefer]
    exact finishStep_defer s .decode
  · rw [hinstr]
    change finishStep s (exec j s) = _
    rw [exec_decode_deferred hrow hsel hm ht, finishStep_defer]

/-- At Fetch plus Decode a secondary instruction that ends the slice has deferred. -/
theorem eq_defer_of_decode_idle {u : State} (hrow : secondaryTable i = some (op, o, m)) (hsel : s.sel = 0x01#8)
    (hexec : exec i s = .next u) (hidle : u.run = .idle) (hrun : s.run = .running) : u = s.defer .decode := by
  rw [exec_at_fetch hrow hsel] at hexec
  rcases fetchDecode_next hexec with ⟨-, hdefer⟩ | ⟨-, v, hframe, rfl⟩
  · exact hdefer
  · have hkeeps : v.run = .running := hframe.control.run.trans hrun
    exact absurd (hkeeps.symm.trans hidle) (by decide)

theorem exists_row_of_secondary (h : i.isa = .secondary) : ∃ op o m, secondaryTable i = some (op, o, m) := by
  cases hrow : secondaryTable i with
  | none => exact absurd ((isa_primary_iff i).mpr hrow) (by simp [h])
  | some row => exact ⟨row.1, row.2.1, row.2.2, rfl⟩

end Decode

/-- Settles O40: a deferral, found at Decode or already at Fetch, is the slice exit and nothing else, so that the state
tried again is the state at first with another T. -/
theorem decodeDeferral : Obligations.DecodeDeferral := by
  unfold Obligations.DecodeDeferral
  refine ⟨fun i op o m s hsel ht hrow hm => exec_decode_deferred hrow hsel hm ht,
    fun i op o m s hrun hsel ht hrow hm hmem => ?step,
    fun b w => ⟨rfl, rfl, rfl, rfl, rfl, rfl, rfl, rfl, rfl, rfl⟩,
    fun i s u n hisa hsel hexec hidle hrun => ?retry⟩
  case step => exact step_decode_deferred hrun hsel hmem (opcodeExpensive_of_cls hrow hm) ht
  case retry =>
    obtain ⟨op, o, m, hrow⟩ := exists_row_of_secondary hisa
    obtain rfl := eq_defer_of_decode_idle hrow hsel hexec hidle hrun
    have hsame : { s.defer .decode with t := n, run := .running, answer := s.answer } = { s with t := n } := by
      rw [← hrun]
      rfl
    exact ⟨congrArg (exec i) hsame, rfl⟩

end Sys2Proof.Machine
end

section
/-! Execute (44_secondary.md R254 to R291): one equation for each shape an effect has, a read of the operand at AD, a
write of one byte, a pull, or no memory at all; then the operations, each as its effect in one of these shapes. -/

namespace Sys2Proof.Machine

/-! ### The sum of ADC and SBC (44_secondary.md R262) -/

/-- V as the rule writes it is the overflow of the signed sum. -/
theorem overflow8_addByte (a b : Byte) (c : Bool) :
    overflow8 a b (addByte a b c) =
      decide (a.toInt + b.toInt + c.toNat < -128 ∨ 127 < a.toInt + b.toInt + c.toNat) := by
  have ha := a.isLt
  have hb := b.isLt
  have hc := c.toNat_le
  have hsigns : overflow8 a b (addByte a b c) =
      (!(decide (128 ≤ a.toNat) ^^ decide (128 ≤ b.toNat)) &&
        (decide (128 ≤ a.toNat) ^^ decide (128 ≤ (addByte a b c).toNat))) := by
    rw [overflow8, BitVec.getLsbD_and, BitVec.getLsbD_not, BitVec.getLsbD_xor, BitVec.getLsbD_xor]
    simp only [getLsbD_seven]
    rfl
  rw [hsigns, toNat_addByte, Bool.eq_iff_iff, BitVec.toInt_eq_toNat_cond, BitVec.toInt_eq_toNat_cond]
  by_cases hneg : 128 ≤ a.toNat <;> by_cases hneg' : 128 ≤ b.toNat <;> simp [hneg, hneg'] <;> omega

/-- P after a sum: bit 0 the carry of the unsigned sum, bit 6 the overflow of the signed one. -/
theorem withCV_addByte (p a b : Byte) (c : Bool) :
    withCV p (carry8 a b (addByte a b c)) (overflow8 a b (addByte a b c)) =
      (p &&& 0xBE#8) ||| (if 255 < a.toNat + b.toNat + (if c then 1 else 0) then 0x01#8 else 0x00#8) |||
        (if a.toInt + b.toInt + (if c then 1 else 0) < -128 ∨ 127 < a.toInt + b.toInt + (if c then 1 else 0)
          then 0x40#8 else 0x00#8) := by
  rw [carry8_addByte, overflow8_addByte, withCV, bitByte]
  cases c <;> simp [Nat.lt_iff_add_one_le]

/-- The carry of A + NOT(m) + 1 says that no borrow occurred (44_secondary.md R264). -/
theorem carry8_sub (a m : Byte) : carry8 a (~~~m) (a - m) = decide (m.toNat ≤ a.toNat) := by
  have hm := m.isLt
  have hsum : a - m = addByte a (~~~m) true := by
    apply BitVec.eq_of_toNat_eq
    rw [toNat_addByte, BitVec.toNat_sub, BitVec.toNat_not, Bool.toNat_true]
    congr 1
    omega
  rw [hsum, carry8_addByte, BitVec.toNat_not, Bool.toNat_true, decide_eq_decide]
  omega

/-- P after a comparison. -/
theorem withC_decide (p : Byte) (q : Prop) [Decidable q] :
    withC p (decide q) = (p &&& 0xFE#8) ||| (if q then 0x01#8 else 0x00#8) := by
  simp [withC, bitByte]

/-! ### The shapes of an Execute step -/

section Execute

variable {i : Instr} {op : Byte} {o : Operation} {m : Mode} {s : State}

@[simp] theorem State.memRead_setSel (s : State) (w : Byte) (addr : Word) :
    (s.setSel w).memRead addr = s.memRead addr := memRead_congr rfl rfl rfl rfl addr

theorem exec_execute_of_ok {u : State} (hrow : secondaryTable i = some (op, o, m)) (hsel : s.sel = 0x02#8)
    (h : o.effect (s.setSel selSFetch) = .ok u) : exec i s = .next (u.charge (o.cost s.cfg)) := by
  rw [exec_at_execute hrow hsel, h]
  rfl

theorem exec_execute_of_error {f : Fault} (hrow : secondaryTable i = some (op, o, m)) (hsel : s.sel = 0x02#8)
    (h : o.effect (s.setSel selSFetch) = .error f) : exec i s = .fault f := by
  rw [exec_at_execute hrow hsel, h]
  rfl

/-! #### An effect that reads the operand m = MemRead(AD, 1) -/

variable {f : Byte → State}

theorem exec_operand_of_some {v : Byte} (hrow : secondaryTable i = some (op, o, m)) (hsel : s.sel = 0x02#8)
    (heffect : o.effect (s.setSel selSFetch) = (s.setSel selSFetch).operand >>= fun b => .ok (f b))
    (hv : s.memRead s.ad = some v) : exec i s = .next ((f v).charge (o.cost s.cfg)) := by
  have hread : (s.setSel selSFetch).operand = .ok v := State.readByte_of_some ((s.memRead_setSel _ _).trans hv)
  refine exec_execute_of_ok hrow hsel ?_
  rw [heffect, hread, do_ok_eq]

theorem exec_operand_of_none (hrow : secondaryTable i = some (op, o, m)) (hsel : s.sel = 0x02#8)
    (heffect : o.effect (s.setSel selSFetch) = (s.setSel selSFetch).operand >>= fun b => .ok (f b))
    (hnone : s.memRead s.ad = none) : exec i s = .fault .readUnwritten := by
  have hread : (s.setSel selSFetch).operand = .error .readUnwritten :=
    State.readByte_of_none ((s.memRead_setSel _ _).trans hnone)
  refine exec_execute_of_error hrow hsel ?_
  rw [heffect, hread, do_error_eq]

end Execute

/-- Settles O41: each load is its effect on the operand read. -/
theorem secondaryLoads : Obligations.SecondaryLoads := by
  unfold Obligations.SecondaryLoads
  refine ⟨fun i op m md s hsel hm => ⟨fun hrow => ?lda, fun hrow => ?ldx, fun hrow => ?ldy⟩,
    fun i op o md s hsel hnone hrow ho => ?unwritten, rfl, rfl, rfl⟩
  case lda => exact exec_operand_of_some hrow hsel rfl hm
  case ldx => exact exec_operand_of_some hrow hsel rfl hm
  case ldy => exact exec_operand_of_some hrow hsel rfl hm
  case unwritten => rcases ho with rfl | rfl | rfl <;> exact exec_operand_of_none hrow hsel rfl hnone

/-- Settles O45: CMP is its effect on the operand read. -/
theorem compare : Obligations.Compare := by
  unfold Obligations.Compare
  refine ⟨fun i op m md s hsel hm hrow => ?compares, fun i op md s hsel hnone hrow => ?unwritten, carry8_sub, rfl⟩
  case compares =>
    rw [← withC_decide]
    exact exec_operand_of_some hrow hsel rfl hm
  case unwritten => exact exec_operand_of_none hrow hsel rfl hnone

/-! ### ADC and SBC -/

/-- The state that a sum leaves. -/
theorem addToA_charge (s : State) (n : Byte) (c : Nat) :
    (addToA (s.setSel selSFetch) n).charge c = { s with
      ac := mkWord (hiByte s.ac) (addByte s.a n s.flagC), sel := 0x01#8, t := s.t - c,
      scratch := { s.scratch with
        b3 := withCV s.p (carry8 s.a n (addByte s.a n s.flagC)) (overflow8 s.a n (addByte s.a n s.flagC)),
        b4 := addByte s.a n s.flagC, b5 := addByte s.a n s.flagC } } := rfl

/-- Settles O43: ADC and SBC are the one addition, of m and of NOT(m). -/
theorem addSubWithCarry : Obligations.AddSubWithCarry := by
  unfold Obligations.AddSubWithCarry
  refine ⟨fun i op m n r p o md k s hsel hm hrow ho hr hp => ?sum,
    fun i op o md s hsel hnone hrow ho => ?unwritten, rfl, rfl⟩
  case sum =>
    have hexec : exec i s = .next ((addToA (s.setSel selSFetch) n).charge k) := by
      rcases ho with ⟨rfl, rfl, rfl⟩ | ⟨rfl, rfl, rfl⟩
      · exact exec_operand_of_some hrow hsel rfl hm
      · exact exec_operand_of_some (f := fun b => addToA (s.setSel selSFetch) (~~~b)) hrow hsel rfl hm
    have hr' : r = addByte s.a n s.flagC := by rw [hr, addByte, bitByte_eq_if]; rfl
    rw [hexec, addToA_charge, hr', hp, ← withCV_addByte]
    rfl
  case unwritten => rcases ho with rfl | rfl <;> exact exec_operand_of_none hrow hsel rfl hnone

/-! ### Branches (44_secondary.md R279) -/

/-- A branch whose condition on the flags says whether it is taken. -/
theorem exec_branch {i : Instr} {op d : Byte} {o : Operation} {m : Mode} {s : State} {cond : Bool} {taken : Prop}
    (hrow : secondaryTable i = some (op, o, m)) (hsel : s.sel = 0x02#8) (hd : s.memRead s.ad = some d)
    (heffect : o.effect (s.setSel selSFetch) = branchIf cond (s.setSel selSFetch)) (hcond : cond = true ↔ taken) :
    (taken → exec i s = .next { s with
      lr := s.lr + BitVec.ofInt 16 d.toInt, sel := 0x01#8, t := s.t - o.cost s.cfg }) ∧
    (¬taken → exec i s = .next { s with sel := 0x01#8, t := s.t - o.cost s.cfg }) := by
  have hexec := exec_operand_of_some hrow hsel heffect hd
  constructor
  · intro htaken
    rw [hexec, if_pos (hcond.mpr htaken)]
    rfl
  · intro hnot
    rw [hexec, if_neg (mt hcond.mp hnot)]
    rfl

/-- An operation with a row of relative mode is a branch. -/
theorem effect_of_rel {i : Instr} {op : Byte} {o : Operation} (hrow : secondaryTable i = some (op, o, .rel))
    (u : State) : ∃ cond, o.effect u = branchIf cond u := by
  cases i <;> simp only [secondaryTable, reduceCtorEq, Option.some.injEq, Prod.mk.injEq, and_false] at hrow <;>
    obtain ⟨-, rfl, -⟩ := hrow <;> exact ⟨_, rfl⟩

/-- Settles O50: each branch is `exec_branch` of its condition on the live flags. -/
theorem secondaryBranches : Obligations.SecondaryBranches := by
  unfold Obligations.SecondaryBranches
  refine ⟨fun i op d o md taken c s hsel hd hrow ho => ?branch, fun i op o s hsel hnone hrow => ?unwritten, by decide⟩
  case branch =>
    rcases ho with ⟨rfl, ht, rfl⟩ | ⟨rfl, ht, rfl⟩ | ⟨rfl, ht, rfl⟩ | ⟨rfl, ht, rfl⟩ | ⟨rfl, ht, rfl⟩ | ⟨rfl, ht, rfl⟩ |
      ⟨rfl, ht, rfl⟩ | ⟨rfl, ht, rfl⟩
    · exact exec_branch (cond := !s.flagN) hrow hsel hd rfl (by simp [ht, State.flagN])
    · exact exec_branch (cond := s.flagN) hrow hsel hd rfl (by simp [ht, State.flagN])
    · exact exec_branch (cond := !s.flagV) hrow hsel hd rfl (by simp [ht, State.flagV])
    · exact exec_branch (cond := s.flagV) hrow hsel hd rfl (by simp [ht, State.flagV])
    · exact exec_branch (cond := !s.flagC) hrow hsel hd rfl (by simp [ht, State.flagC])
    · exact exec_branch (cond := s.flagC) hrow hsel hd rfl (by simp [ht, State.flagC])
    · exact exec_branch (cond := !s.flagZ) hrow hsel hd rfl (by simp [ht, State.flagZ])
    · exact exec_branch (cond := s.flagZ) hrow hsel hd rfl (by simp [ht, State.flagZ])
  case unwritten =>
    obtain ⟨cond, heffect⟩ := effect_of_rel hrow (s.setSel selSFetch)
    exact exec_operand_of_none hrow hsel heffect hnone

/-! ### One byte written: STA, STX, STY, PHA, PHP -/

namespace State

/-- A write at one address: the byte reads back, every other byte is as before. Stated for a state `t` that MemRead
does not tell from the one it leaves. -/
theorem memRead_after_write {s t : State} {a : Word} {v : Byte}
    (h : ∀ addr, t.memRead addr = (s.memWrite a v).memRead addr) :
    t.memRead a = some v ∧ ∀ b, b ≠ a → t.memRead b = s.memRead b := by
  refine ⟨?same, fun b hb => ?other⟩
  case same => rw [h, memRead_memWrite_same]
  case other => rw [h, memRead_memWrite_other _ _ hb]

end State

section Write

variable {i : Instr} {op : Byte} {o : Operation} {m : Mode} {s : State}

/-- What a store of one byte leaves at Execute. -/
def afterStore (s : State) (v : Byte) (c : Nat) : State := { s.memWrite s.ad v with sel := 0x01#8, t := s.t - c }

/-- What a push of one byte leaves at Execute. -/
def afterPush8 (s : State) (v : Byte) (c : Nat) : State :=
  { s.memWrite (mkWord 0x00#8 (s.sp - 1)) v with sp := s.sp - 1, sel := 0x01#8, t := s.t - c }

theorem exec_store {v : Byte} (hrow : secondaryTable i = some (op, o, m)) (hsel : s.sel = 0x02#8)
    (heffect : o.effect (s.setSel selSFetch) = .ok ((s.setSel selSFetch).memWrite s.ad v)) :
    exec i s = .next (afterStore s v (o.cost s.cfg)) := by
  rw [exec_execute_of_ok hrow hsel heffect, State.memWrite_setSel]
  simp [afterStore, State.charge, State.setT, State.setSel, selSFetch]

theorem exec_push8 {v : Byte} (hrow : secondaryTable i = some (op, o, m)) (hsel : s.sel = 0x02#8)
    (heffect : o.effect (s.setSel selSFetch) = .ok ((s.setSel selSFetch).push8 v)) :
    exec i s = .next (afterPush8 s v (o.cost s.cfg)) := by
  rw [exec_execute_of_ok hrow hsel heffect, State.push8, State.memWrite_setSp, State.memWrite_setSel]
  simp [afterPush8, State.charge, State.setT, State.setSel, State.setSp, State.stackAddr, stackPage, selSFetch]

theorem memRead_afterStore (s : State) (v : Byte) (c : Nat) : (afterStore s v c).memRead s.ad = some v ∧
    ∀ b, b ≠ s.ad → (afterStore s v c).memRead b = s.memRead b :=
  State.memRead_after_write (State.memRead_congr rfl rfl rfl rfl)

theorem memRead_afterPush8 (s : State) (v : Byte) (c : Nat) :
    (afterPush8 s v c).memRead (mkWord 0x00#8 (s.sp - 1)) = some v ∧
    ∀ b, b ≠ mkWord 0x00#8 (s.sp - 1) → (afterPush8 s v c).memRead b = s.memRead b :=
  State.memRead_after_write (State.memRead_congr rfl rfl rfl rfl)

theorem afterStore_registers (s : State) (v : Byte) (c : Nat) :
    { afterStore s v c with mem := s.mem, sysfn := s.sysfn, scratch := s.scratch } =
      { s with sel := 0x01#8, t := s.t - c } :=
  congrArg (fun u : State => { u with sel := 0x01#8, t := s.t - c }) (State.memWrite_registers s s.ad v)

theorem afterPush8_registers (s : State) (v : Byte) (c : Nat) :
    { afterPush8 s v c with mem := s.mem, sysfn := s.sysfn, scratch := s.scratch } =
      { s with sp := s.sp - 1, sel := 0x01#8, t := s.t - c } :=
  congrArg (fun u : State => { u with sp := s.sp - 1, sel := 0x01#8, t := s.t - c })
    (State.memWrite_registers s (mkWord 0x00#8 (s.sp - 1)) v)

end Write

/-- Settles O42: each store is one write of memory at AD. -/
theorem secondaryStores : Obligations.SecondaryStores := by
  unfold Obligations.SecondaryStores
  refine ⟨fun i op v o md c s hsel hrow ho => ⟨afterStore s v c, ?stores, rfl, ?frame⟩, rfl, rfl, rfl⟩
  case stores =>
    rcases ho with ⟨rfl, rfl, rfl⟩ | ⟨rfl, rfl, rfl⟩ | ⟨rfl, rfl, rfl⟩ <;> exact exec_store hrow hsel rfl
  case frame =>
    obtain ⟨hsame, hother⟩ := memRead_afterStore s v c
    exact ⟨hsame, hother, afterStore_registers s v c⟩

/-! ### One byte pulled: PLA, PLP -/

section Pull

variable {i : Instr} {op : Byte} {o : Operation} {m : Mode} {s : State}

theorem State.pull8_of_some {v : Byte} (h : s.memRead (mkWord 0x00#8 s.sp) = some v) :
    s.pull8 = .ok (v, s.setSp (s.sp + 1)) := by
  rcases s.pull8_cases with ⟨w, hw, e⟩ | ⟨hnone, -⟩
  · cases h.symm.trans hw
    exact e
  · cases h.symm.trans hnone

theorem State.pull8_of_none (h : s.memRead (mkWord 0x00#8 s.sp) = none) : s.pull8 = .error .readUnwritten := by
  rcases s.pull8_cases with ⟨w, hw, -⟩ | ⟨-, e⟩
  · cases h.symm.trans hw
  · exact e

variable {f : Byte × State → State}

theorem exec_pull_of_some {v : Byte} (hrow : secondaryTable i = some (op, o, m)) (hsel : s.sel = 0x02#8)
    (heffect : o.effect (s.setSel selSFetch) = (s.setSel selSFetch).pull8 >>= fun r => .ok (f r))
    (hv : s.memRead (mkWord 0x00#8 s.sp) = some v) :
    exec i s = .next ((f (v, (s.setSel selSFetch).setSp (s.sp + 1))).charge (o.cost s.cfg)) := by
  refine exec_execute_of_ok hrow hsel ?_
  rw [heffect, State.pull8_of_some ((s.memRead_setSel selSFetch _).trans hv), do_ok_eq]
  rfl

theorem exec_pull_of_none (hrow : secondaryTable i = some (op, o, m)) (hsel : s.sel = 0x02#8)
    (heffect : o.effect (s.setSel selSFetch) = (s.setSel selSFetch).pull8 >>= fun r => .ok (f r))
    (hnone : s.memRead (mkWord 0x00#8 s.sp) = none) : exec i s = .fault .readUnwritten := by
  refine exec_execute_of_error hrow hsel ?_
  rw [heffect, State.pull8_of_none ((s.memRead_setSel selSFetch _).trans hnone), do_error_eq]

end Pull

/-- What PLA does with the byte pulled. -/
def putPulledA (r : Byte × State) : State := (r.2.setA r.1).setZN r.1

/-- What PLP does with the byte pulled (44_secondary.md R255). -/
def putPulledFlags (r : Byte × State) : State := (r.2.setP r.1).setQ (unpackQZ r.1) (unpackQN r.1)

theorem effect_pla (u : State) : Operation.pla.effect u = u.pull8 >>= fun r => .ok (putPulledA r) := rfl

theorem effect_plp (u : State) : Operation.plp.effect u = u.pull8 >>= fun r => .ok (putPulledFlags r) := rfl

/-- Settles O47: PHA is the push of A, PLA follows the two outcomes of its pull. -/
theorem secondaryStack : Obligations.SecondaryStack := by
  unfold Obligations.SecondaryStack
  refine ⟨fun s hsel => ⟨_, exec_push8 (i := .pha) rfl hsel rfl, rfl, ?frame⟩,
    fun s hsel => ⟨fun v hv => ?pull, fun hnone => ?unwritten⟩, rfl, rfl⟩
  case frame =>
    obtain ⟨hsame, hother⟩ := memRead_afterPush8 s s.a s.cfg.exCost.pha
    exact ⟨hsame, hother, afterPush8_registers s s.a s.cfg.exCost.pha⟩
  case pull =>
    rw [exec_pull_of_some rfl hsel (effect_pla _) hv]
    rfl
  case unwritten => exact exec_pull_of_none rfl hsel (effect_pla _) hnone

/-- Settles O48: PHP is the push of the canonical flags byte, PLP follows the two outcomes of its pull. -/
theorem flagsStack : Obligations.FlagsStack := by
  unfold Obligations.FlagsStack
  refine ⟨fun s v hsel hv => ⟨afterPush8 s v s.cfg.exCost.php, ?push, rfl, ?frame⟩,
    fun s hsel => ⟨fun v hv => ?pull, fun hnone => ?unwritten⟩, rfl, rfl⟩
  case push =>
    have hpack : v = packFlags s.p s.qz s.qn := hv
    rw [hpack]
    exact exec_push8 (i := .php) rfl hsel rfl
  case frame =>
    obtain ⟨hsame, hother⟩ := memRead_afterPush8 s v s.cfg.exCost.php
    exact ⟨hsame, hother, afterPush8_registers s v s.cfg.exCost.php⟩
  case pull =>
    rw [exec_pull_of_some rfl hsel (effect_plp _) hv]
    rfl
  case unwritten => exact exec_pull_of_none rfl hsel (effect_plp _) hnone

/-! ### JMP, NOP and the two ways out -/

/-- BRK and the escape have one effect and one cost (44_secondary.md R290, R291). -/
theorem exec_leave {i : Instr} {s : State} (hsel : s.sel = 0x02#8) (hi : i = .brk ∨ ∃ op : Byte, i = .esc op) :
    exec i s = .next { s with sel := 0x00#8, t := s.t - s.cfg.exCost.brk } := by
  rcases hi with rfl | ⟨op, rfl⟩
  · exact exec_execute_of_ok (o := .brk) rfl hsel rfl
  · exact exec_execute_of_ok (o := .esc) rfl hsel rfl

/-- Settles O51: none of the four reads memory, so each is its effect charged; SEL = 0x00 ends the slice. -/
theorem jumpNopBreak : Obligations.JumpNopBreak := by
  unfold Obligations.JumpNopBreak
  refine ⟨fun a s hsel => ⟨?jmp, ?nop, exec_leave hsel (.inl rfl), fun op => exec_leave hsel (.inr ⟨op, rfl⟩),
    fun hrun i hi => ?switched⟩, rfl, rfl, rfl⟩
  case jmp => exact exec_execute_of_ok (o := .jmp) rfl hsel rfl
  case nop => exact exec_execute_of_ok (o := .nop) rfl hsel rfl
  case switched =>
    have hsecondary : interp s.sel = some .secondary := by rw [hsel]; rfl
    rw [exec_leave hsel hi]
    exact finishStep_switched hsecondary (j := .primary) rfl hrun (by decide)

end Sys2Proof.Machine
end

section
/-! Interrupts (60_exceptions.md R333 to R339): one equation for each way RTI and IRQ_CHECK can begin, then the slice
that a return into the secondary interpreter ends. -/

namespace Sys2Proof.Machine

/-! ### RTI: deferred, outside a handler, or the return (60_exceptions.md R338) -/

section Return

variable {s : State}

theorem exec_rti_deferred (h : s.t - s.cfg.rtiExtra < 0) : exec .rti s = .next (s.defer .rti) := by
  change execRti s = _
  rw [execRti, if_pos h]

theorem exec_rti_admitted (h : 0 ≤ s.t - s.cfg.rtiExtra) :
    exec .rti s = primaryStep 1 s.cfg.costRti (fun u =>
      if u.insvc then .ok u.returnFromInterrupt else .error .rtiOutsideHandler) s := by
  change execRti s = _
  rw [execRti, if_neg (Int.not_lt.mpr h)]

theorem exec_rti_outsideHandler (h : 0 ≤ s.t - s.cfg.rtiExtra) (hsvc : s.insvc = false) :
    exec .rti s = .fault .rtiOutsideHandler := by
  rw [exec_rti_admitted h]
  exact primaryStep_of_error (if_neg (by simp [hsvc]))

theorem exec_rti_inHandler (h : 0 ≤ s.t - s.cfg.rtiExtra) (hsvc : s.insvc = true) :
    exec .rti s = .next (s.returnFromInterrupt.charge s.cfg.costRti) := by
  rw [exec_rti_admitted h]
  exact primaryStep_of_ok (if_pos hsvc)

theorem interp_secondary {sel : Byte} (h : sel = 0x01#8 ∨ sel = 0x02#8) : interp sel = some .secondary := by
  rcases h with rfl | rfl <;> rfl

end Return

/-- Settles O35: the deferral, the stop and the return are the equations of RTI; a return from the primary into the
secondary interpreter ends the slice. -/
theorem interruptReturn : Obligations.InterruptReturn := by
  unfold Obligations.InterruptReturn
  refine ⟨fun s => ⟨rfl, exec_rti_deferred, exec_rti_outsideHandler, exec_rti_inHandler,
    fun ht hsvc hrun hsel hisel => ?switched⟩, rfl, rfl⟩
  have hprimary : interp s.sel = some .primary := by rw [hsel]; rfl
  rw [exec_rti_inHandler ht hsvc]
  exact finishStep_switched hprimary (interp_secondary hisel) hrun (by decide)

/-! ### IRQ_CHECK: the vector without a value, not taken, or the entry (60_exceptions.md R333, R334) -/

section Check

variable {s : State}

theorem State.readWord_of_some {a : Word} {lo hi : Byte} (hlo : s.memRead a = some lo)
    (hhi : s.memRead (a + 1) = some hi) : s.readWord a = .ok (mkWord hi lo) := by
  rcases s.readWord_cases a with ⟨lo', hi', hlo', hhi', e⟩ | ⟨hnone, -⟩
  · cases hlo.symm.trans hlo'
    cases hhi.symm.trans hhi'
    exact e
  · exact absurd hnone (not_none_of_some hlo hhi)

theorem State.readWord_of_none {a : Word} (h : s.memRead a = none ∨ s.memRead (a + 1) = none) :
    s.readWord a = .error .readUnwritten := by
  rcases s.readWord_cases a with ⟨lo, hi, hlo, hhi, -⟩ | ⟨-, e⟩
  · exact absurd h (not_none_of_some hlo hhi)
  · exact e

theorem irqCheck_unwritten {f : Fault} (h : s.readWord s.cfg.irqVectorAddr = .error f) : irqCheck s = .fault f := by
  rw [irqCheck, h]

theorem irqCheck_taken {v : Word} (h : s.readWord s.cfg.irqVectorAddr = .ok v) (hv : v ≠ 0x0000#16)
    (hsvc : s.insvc = false) : irqCheck s = .next ((s.enterInterrupt v).setAnswer (some (.irqChecked true))) := by
  rw [irqCheck, h]
  exact if_pos ⟨hv, hsvc⟩

theorem irqCheck_notTaken {v : Word} (h : s.readWord s.cfg.irqVectorAddr = .ok v)
    (hno : v = 0x0000#16 ∨ s.insvc = true) : irqCheck s = .next (s.setAnswer (some (.irqChecked false))) := by
  have hguard : ¬(v ≠ 0x0000#16 ∧ s.insvc = false) := by
    rintro ⟨hv, hsvc⟩
    rcases hno with hzero | hin
    · exact hv hzero
    · simp [hsvc] at hin
  rw [irqCheck, h]
  exact if_neg hguard

end Check

/-- Settles O36: the word read at the vector address decides which of the three equations of IRQ_CHECK applies. -/
theorem interruptCheck : Obligations.InterruptCheck := by
  unfold Obligations.InterruptCheck
  refine ⟨fun s lo hi hlo hhi hvector hsvc => ?taken, fun s lo hi hlo hhi hno => ?notTaken, fun s hnone => ?unwritten⟩
  case taken => exact irqCheck_taken (State.readWord_of_some hlo hhi) hvector hsvc
  case notTaken => exact irqCheck_notTaken (State.readWord_of_some hlo hhi) hno
  case unwritten => exact irqCheck_unwritten (State.readWord_of_none hnone)

end Sys2Proof.Machine
end

section
/-! Decoding and encoding (30_encoding.md R90 to R107): the decoder at a row of its table, what it makes of an
encoding, and that it takes nothing but encodings. -/

namespace Sys2Proof

variable {op : Byte} {row : OpRow} {i : Instr} {bytes rest : List Byte}

/-! ### The decoder at a row of its table -/

theorem decodePrimary_of_row (hop : op ≠ pfxOpcode) (h : primaryRow op = some row) (bytes : List Byte) :
    decodePrimary (op :: bytes) = (row.readOperand bytes).bind refuseReservedOperand := by
  rw [decodePrimary, if_neg hop, h]

theorem decodeExtended_of_row (h : extendedRow op = some row) (bytes : List Byte) :
    decodeExtended (op :: bytes) = row.readOperand bytes := by
  rw [decodeExtended, h]

theorem decodeSecondary_of_row (h : secondaryRow op = some row) (bytes : List Byte) :
    decodeSecondary (op :: bytes) = row.readOperand bytes := by
  rw [decodeSecondary, h]

theorem decodeSecondary_escape (h : op ∉ implementedOpcodes) (rest : List Byte) :
    decodeSecondary (op :: rest) = .ok (.esc op, rest) := by
  have hrow : secondaryRow op = none := (secondaryRow_none_iff op).mpr (by simpa using h)
  rw [decodeSecondary, hrow]

/-! ### What it makes of an encoding -/

/-- A word is what its two bytes are assembled to, so a row of two operand bytes gives the operand back. -/
theorem eq_ok_of_assembled {r : Except DecodeError (Instr × List Byte)} {f : Word → Instr} {w : Word}
    (h : r = .ok (f (mkWord (hiByte w) (loByte w)), rest)) : r = .ok (f w, rest) := by
  rwa [Machine.mkWord_bytes] at h

/-- SYS is the one row whose operand is screened, and the escape the one instruction without a row; every other
encoding runs through its row. -/
theorem decode_encode (i : Instr) (rest : List Byte) (hwf : i.wellFormed = true) :
    decode i.isa (encode i ++ rest) = .ok (i, rest) := by
  cases i
  case sys d =>
    have hlegal : sysOperandLegal d = true := hwf
    exact (decodePrimary_sys d rest).trans (if_pos hlegal)
  case esc op => exact decodeSecondary_escape (by simpa [Instr.wellFormed] using hwf) rest
  all_goals first | rfl | exact eq_ok_of_assembled rfl

/-- Settles O1: `decode_encode`, the case split over the constructors of Instr. -/
theorem decodeOfEncode : Obligations.DecodeOfEncode := by
  unfold Obligations.DecodeOfEncode
  exact decode_encode

/-! ### It takes nothing but encodings -/

theorem decodeExtended_ok (h : decodeExtended bytes = .ok (i, rest)) :
    pfxOpcode :: bytes = encode i ++ rest ∧ i.wellFormed = true ∧ i.isa = .primary := by
  cases bytes with
  | nil => cases h
  | cons xop bytes =>
    cases hrow : extendedRow xop with
    | none => rw [decodeExtended, hrow] at h; cases h
    | some row =>
      rw [decodeExtended_of_row hrow] at h
      obtain ⟨hbytes, hisa, hwf | ⟨d, rfl⟩⟩ := readOperand_good (extendedRow_good hrow) h
      · exact ⟨hbytes, hwf, hisa⟩
      · simp [encode, pfxOpcode] at hbytes

/-- The screen of the SYS operand lets an instruction through unchanged, and no reserved operand. -/
theorem refuseReservedOperand_ok {r : Instr × List Byte} (h : refuseReservedOperand r = .ok (i, rest)) :
    r = (i, rest) ∧ ∀ d, i = .sys d → i.wellFormed = true := by
  unfold refuseReservedOperand at h
  split at h
  · split_ifs at h with hlegal
    cases h
    exact ⟨rfl, fun _ _ => hlegal⟩
  · rename_i hother
    cases h
    exact ⟨rfl, fun d hd => absurd (by rw [hd]) (hother d rest)⟩

theorem decodePrimary_ok (h : decodePrimary bytes = .ok (i, rest)) :
    bytes = encode i ++ rest ∧ i.wellFormed = true ∧ i.isa = .primary := by
  cases bytes with
  | nil => cases h
  | cons op bytes =>
    by_cases hpfx : op = pfxOpcode
    · rw [hpfx, decodePrimary_pfx] at h
      exact hpfx ▸ decodeExtended_ok h
    · cases hrow : primaryRow op with
      | none => rw [decodePrimary, if_neg hpfx, hrow] at h; cases h
      | some row =>
        rw [decodePrimary_of_row hpfx hrow] at h
        cases hread : row.readOperand bytes with
        | error e => rw [hread] at h; cases h
        | ok r =>
          rw [hread] at h
          obtain ⟨rfl, hscreen⟩ := refuseReservedOperand_ok h
          obtain ⟨hbytes, hisa, hwf⟩ := readOperand_good (primaryRow_good hrow) hread
          exact ⟨hbytes, hwf.elim id (fun ⟨d, hd⟩ => hscreen d hd), hisa⟩

theorem decodeSecondary_ok (h : decodeSecondary bytes = .ok (i, rest)) :
    bytes = encode i ++ rest ∧ i.wellFormed = true ∧ i.isa = .secondary := by
  cases bytes with
  | nil => cases h
  | cons op bytes =>
    cases hrow : secondaryRow op with
    | none =>
      rw [decodeSecondary, hrow] at h
      cases h
      exact ⟨rfl, by simpa [Instr.wellFormed] using (secondaryRow_none_iff op).mp hrow, rfl⟩
    | some row =>
      rw [decodeSecondary_of_row hrow] at h
      obtain ⟨hbytes, hisa, hwf | ⟨d, rfl⟩⟩ := readOperand_good (secondaryRow_good hrow) h
      · exact ⟨hbytes, hwf, hisa⟩
      · cases hisa

theorem decode_ok {isa : Isa} (h : decode isa bytes = .ok (i, rest)) :
    bytes = encode i ++ rest ∧ i.wellFormed = true ∧ i.isa = isa := by
  cases isa with
  | primary => exact decodePrimary_ok h
  | secondary => exact decodeSecondary_ok h

/-- Settles O2: `decode_ok`, by the rows of the three tables. -/
theorem encodeOfDecode : Obligations.EncodeOfDecode := by
  unfold Obligations.EncodeOfDecode
  exact fun isa bytes i rest h => decode_ok h

end Sys2Proof
end

section
/-! What the fetch of a step finds (40_scheduler_dispatch.md R125, R126): an instruction of the set that SEL selects. -/

namespace Sys2Proof.Machine

variable {s : State} {i : Instr}

theorem fetch_primary (h : s.sel = 0x00#8) : fetch s = fetchPrimary s := if_pos h

theorem fetch_secondary (h : s.sel = 0x01#8) : fetch s = fetchSecondary s := by
  simp [fetch, h, selP, selSFetch]

theorem fetch_latched (h : s.sel = 0x02#8) : fetch s = latchedInstr s := by
  simp [fetch, h, selP, selSFetch, selSExec]

theorem fetch_reserved (h0 : s.sel ≠ 0x00#8) (h1 : s.sel ≠ 0x01#8) (h2 : s.sel ≠ 0x02#8) :
    fetch s = .stop .selReserved := by
  simp [fetch, selP, selSFetch, selSExec, h0, h1, h2]

theorem step_reserved (hrun : s.run = .running) (h0 : s.sel ≠ 0x00#8) (h1 : s.sel ≠ 0x01#8) (h2 : s.sel ≠ 0x02#8) :
    step s = .fault .selReserved := by
  rw [step_running hrun, dispatchStep, fetch_reserved h0 h1 h2]

theorem fetchPrimary_isa (h : fetchPrimary s = .instr i) : i.isa = .primary := by
  unfold fetchPrimary at h
  split at h
  · rename_i j rest hdec
    cases h
    exact (decodePrimary_ok hdec).2.2
  · cases h

theorem secondaryOf_isa {bytes : List Byte} (h : secondaryOf bytes = .instr i) : i.isa = .secondary := by
  unfold secondaryOf at h
  split at h
  · rename_i j rest hdec
    cases h
    exact (decodeSecondary_ok hdec).2.2
  · cases h

theorem fetchSecondary_isa (h : fetchSecondary s = .instr i) : i.isa = .secondary := by
  unfold fetchSecondary at h
  split at h
  · cases h
  · split at h
    · rename_i j rest hdec
      cases h
      exact (decodeSecondary_ok hdec).2.2
    · split_ifs at h
      exact secondaryOf_isa h

/-- SEL alone decides which set the instruction of a step belongs to. -/
theorem fetch_isa (h : fetch s = .instr i) :
    (s.sel = 0x00#8 ∧ i.isa = .primary) ∨ ((s.sel = 0x01#8 ∨ s.sel = 0x02#8) ∧ i.isa = .secondary) := by
  by_cases h0 : s.sel = 0x00#8
  · exact .inl ⟨h0, fetchPrimary_isa (fetch_primary h0 ▸ h)⟩
  by_cases h1 : s.sel = 0x01#8
  · exact .inr ⟨.inl h1, fetchSecondary_isa (fetch_secondary h1 ▸ h)⟩
  by_cases h2 : s.sel = 0x02#8
  · exact .inr ⟨.inr h2, secondaryOf_isa (fetch_latched h2 ▸ h)⟩
  · rw [fetch_reserved h0 h1 h2] at h
    cases h

end Sys2Proof.Machine
end

section
/-! The invariants of memory and of the selector (20_memory.md R61, R63; 10_state.md R30): what they rest on, then the
step that keeps them, from what a running step and a host command can do. -/

namespace Sys2Proof.Machine

variable {s t : State}

/-- A property that the host's queue has no part in is kept by every step if running steps and host commands keep it. -/
theorem step_keeps {P : State → Prop} (hqueue : ∀ s rest, P s → P { s with pending := rest, answer := none })
    (hrunning : ∀ {s t}, s.run = .running → P s → step s = .next t → P t)
    (hhost : ∀ {c s t}, P s → runCommand c s = .next t → P t) (hs : P s) (h : step s = .next t) : P t := by
  cases hrun : s.run with
  | running => exact hrunning hrun hs h
  | idle =>
    rcases idle_cases hrun h with rfl | ⟨c, rest, -, hcommand⟩
    · exact hs
    · exact hhost (hqueue s rest hs) hcommand

/-- A running step defers, or leaves its instruction's state, up to the end of the slice. -/
theorem running_ends (hrun : s.run = .running) (h : step s = .next t) :
    (∃ r, t = s.defer r) ∨ ∃ i u, fetch s = .instr i ∧ exec i s = .next u ∧ ExecResult s u ∧
      (t = u ∨ ∃ r, t = u.exitSlice r) := by
  rcases running_result hrun h with hdefer | ⟨i, u, hfetch, hexec, hresult, hend⟩
  · exact .inl hdefer
  · refine .inr ⟨i, u, hfetch, hexec, hresult, ?_⟩
    rcases hend with ⟨-, -, -, hexit⟩ | ⟨-, -, hexit⟩ | ⟨-, -, hsame⟩
    · exact .inr ⟨_, hexit⟩
    · exact .inr ⟨_, hexit⟩
    · exact .inl hsame

/-! ### Memory -/

/-- The invariant speaks of the listed bytes and the configuration only. -/
theorem MemoryGood.congr (h : MemoryGood s) (hmem : t.mem = s.mem) (hcfg : t.cfg = s.cfg) : MemoryGood t :=
  ⟨hmem ▸ h.canonical, by rw [hmem, hcfg]; exact h.noWindow⟩

/-- RESET leaves nothing listed (70_reset_and_hazards.md R360). -/
theorem memoryGood_of_nil (h : t.mem = []) : MemoryGood t :=
  ⟨by simp [h, Memory.wf], by simp [h]⟩

theorem runCommand_keeps_memoryGood {c : Command} (hgood : MemoryGood s) (h : runCommand c s = .next t) :
    MemoryGood t := by
  rcases command_cases h with rfl | ⟨v, -, -, rfl⟩ | ⟨a, rfl⟩ | ⟨i, b, -, -, rfl⟩ | ⟨a, v, rfl⟩
  · exact memoryGood_of_nil rfl
  · exact hgood.congr rfl rfl
  · exact hgood.congr rfl rfl
  · exact hgood.congr rfl rfl
  · exact State.memWrite_memoryGood a v hgood

theorem running_keeps_memoryGood (hrun : s.run = .running) (hgood : MemoryGood s) (h : step s = .next t) :
    MemoryGood t := by
  rcases running_ends hrun h with ⟨r, rfl⟩ | ⟨i, u, -, -, hexec, hend⟩
  · exact hgood.congr rfl rfl
  · have hu : MemoryGood u := hexec.memory hgood
    rcases hend with rfl | ⟨r, rfl⟩
    · exact hu
    · exact hu.congr rfl rfl

/-- Settles O53: a running step writes memory through the windows only, and so does the host; RESET empties it. -/
theorem stepKeepsMemoryGood : Obligations.StepKeepsMemoryGood := by
  unfold Obligations.StepKeepsMemoryGood
  exact fun s t => step_keeps (fun _ _ hgood => hgood.congr rfl rfl) running_keeps_memoryGood
    runCommand_keeps_memoryGood

/-! ### The selector -/

/-- The invariant speaks of SEL and ISEL only. -/
theorem SelectorGood.congr (h : SelectorGood s) (hsel : t.sel = s.sel) (hisel : t.isel = s.isel) : SelectorGood t :=
  ⟨hsel ▸ h.sel, hisel ▸ h.isel⟩

theorem runCommand_keeps_selectorGood {c : Command} (hgood : SelectorGood s) (h : runCommand c s = .next t) :
    SelectorGood t := by
  rcases command_cases h with rfl | ⟨v, -, -, rfl⟩ | ⟨a, rfl⟩ | ⟨i, b, -, -, rfl⟩ | ⟨a, v, rfl⟩
  · exact ⟨.inl rfl, hgood.isel⟩
  · exact ⟨.inl rfl, hgood.sel⟩
  · exact hgood.congr rfl rfl
  · exact hgood.congr rfl rfl
  · exact hgood.congr (by simp) (by simp)

/-- An instruction leaves SEL as it was, at a legal value of its own, or at the one saved. -/
theorem ExecResult.selectorGood (h : ExecResult s t) (hgood : SelectorGood s) : SelectorGood t := by
  refine ⟨?_, h.isel ▸ hgood.isel⟩
  rcases h.sel with hkept | hprimary | hfetch | hexec | hsaved
  · exact hkept ▸ hgood.sel
  · exact .inl hprimary
  · exact .inr (.inl hfetch)
  · exact .inr (.inr hexec)
  · exact hsaved ▸ hgood.isel

theorem running_keeps_selectorGood (hrun : s.run = .running) (hgood : SelectorGood s) (h : step s = .next t) :
    SelectorGood t := by
  rcases running_ends hrun h with ⟨r, rfl⟩ | ⟨i, u, -, -, hexec, hend⟩
  · exact hgood.congr rfl rfl
  · have hu : SelectorGood u := hexec.selectorGood hgood
    rcases hend with rfl | ⟨r, rfl⟩
    · exact hu
    · exact hu.congr rfl rfl

/-- Settles O54: IRQ_CHECK saves the SEL there is, RTI puts the saved one back, and every other writer of SEL writes a
legal value. -/
theorem stepKeepsSelectorGood : Obligations.StepKeepsSelectorGood := by
  unfold Obligations.StepKeepsSelectorGood
  exact fun s t => step_keeps (fun _ _ hgood => hgood.congr rfl rfl) running_keeps_selectorGood
    runCommand_keeps_selectorGood

end Sys2Proof.Machine
end

section
/-! The range of T (40_scheduler_dispatch.md R133): what each kind of instruction charges and leaves in reserve, then
the running step, the entry of a slice, and the invariant. -/

namespace Sys2Proof.Machine

variable {s t u : State} {i : Instr}

/-- A charge of at least one tick that spends no more than a reserve of `m` ticks. -/
structure Charged (m : Nat) (s t : State) : Prop where
  spends : t.t < s.t
  reserve : -(m : Int) ≤ t.t

/-! ### What an instruction charges -/

theorem charged_of_cost {m c : Nat} (ht : 0 ≤ s.t) (hu : u.t = s.t) (hc : 1 ≤ c ∧ c ≤ m) : Charged m s (u.charge c) := by
  constructor <;> rw [State.charge_t, hu] <;> omega

theorem Operation.cost_mem (o : Operation) (c : Config) : o.cost c ∈ c.exCost.toList := by
  cases o <;> simp [Operation.cost, ExecuteCosts.toList]

/-- A decode that is not deferred costs no more than the reserve and what its admission has tested (R242, R243). -/
theorem decodeCost_bounds {k : ModeClass} (hwf : s.cfg.TicksWf) (ht : 0 ≤ s.t) (hd : decodeDeferred s k = false) :
    1 ≤ decodeCost s.cfg k ∧ (decodeCost s.cfg k : Int) ≤ s.cfg.maxtS + s.t := by
  cases k with
  | cheap => have := hwf.decodeCheap; simp only [decodeCost]; omega
  | medium => have := hwf.decodeMedium; simp only [decodeCost]; omega
  | expensive =>
    have hadmitted : 0 ≤ s.t - s.cfg.expExtraS := by simpa [decodeDeferred, expensiveNotAdmitted] using hd
    have := hwf.decodeExpensive
    simp only [decodeCost]
    omega

theorem exec_secondary_charged (hwf : s.cfg.TicksWf) (ht : 0 ≤ s.t) (hi : i.isa = .secondary)
    (h : exec i s = .next t) : (∃ r, t = s.defer r) ∨ Charged s.cfg.maxtS s t := by
  obtain ⟨op, o, m, hrow⟩ := exists_row_of_secondary hi
  rcases secondary_frame hrow h with ⟨-, -, rfl⟩ | ⟨-, hd, u, hframe, rfl⟩ | ⟨-, u, hframe, rfl⟩
  · exact .inl ⟨_, rfl⟩
  · have hu : u.t = s.t := hframe.control.ticks
    obtain ⟨hmin, hmax⟩ := decodeCost_bounds hwf ht hd
    refine .inr ⟨?_, ?_⟩ <;> rw [State.charge_t, hu] <;> omega
  · exact .inr (charged_of_cost ht hframe.control.ticks (hwf.execute _ (o.cost_mem s.cfg)))

/-- SYS charges what its routine reports, between 1 and MAXT_P - D (43_sys.md R217, R223). -/
theorem exec_sys_charged {d : Byte} (h : exec (.sys d) s = .next t) :
    (t = s.defer .sys) ∨ (Charged s.cfg.maxtP s t ∧ s.t - t.t ≤ s.cfg.maxtP - d.toInt) := by
  obtain ⟨-, ⟨-, rfl⟩ | ⟨hadmitted, slot, -, -, -, v, r, -, hmin, hmax, rfl⟩⟩ := execSys_next h
  · exact .inl rfl
  · simp only [signed8] at hadmitted hmax
    refine .inr ⟨⟨?_, ?_⟩, ?_⟩ <;> rw [State.setT_t] <;> omega

theorem exec_rti_charged (hwf : s.cfg.TicksWf) (h : exec .rti s = .next t) :
    (∃ r, t = s.defer r) ∨ Charged s.cfg.maxtP s t := by
  rcases execRti_next h with ⟨-, rfl⟩ | ⟨hadmitted, -, rfl⟩
  · exact .inl ⟨_, rfl⟩
  · have hcost := hwf.rti
    have hticks : (s.setPc (s.pc + 1)).returnFromInterrupt.t = s.t := rfl
    refine .inr ⟨?_, ?_⟩ <;> rw [State.charge_t, hticks] <;> omega

theorem exec_primary_charged (hwf : s.cfg.TicksWf) (ht : 0 ≤ s.t) (hi : i.isa = .primary)
    (h : exec i s = .next t) : (∃ r, t = s.defer r) ∨ Charged s.cfg.maxtP s t := by
  rcases primary_cases i with ⟨d, rfl⟩ | rfl | ⟨hsys, hrti⟩
  · exact (exec_sys_charged h).imp (fun hdefer => ⟨_, hdefer⟩) And.left
  · exact exec_rti_charged hwf h
  · obtain ⟨len, c, eff, hshape, hcost, hframe⟩ := exec_primary ((isa_primary_iff i).mp hi) hsys hrti s
    rw [hshape] at h
    obtain ⟨u, hu, rfl⟩ := primaryStep_next.mp h
    have hticks : u.t = s.t := (hframe _ _ hu).control.ticks
    exact .inr (charged_of_cost ht hticks ((List.mem_append.mp hcost).elim (hwf.primary c) (hwf.extended c)))

/-! ### The running step -/

/-- The step of an interpreter defers, or charges its instruction within that interpreter's reserve. -/
theorem running_charged {j : Interp} (hwf : s.cfg.TicksWf) (ht : 0 ≤ s.t) (hrun : s.run = .running)
    (hj : interp s.sel = some j) (h : step s = .next t) :
    (∃ r, t = s.defer r) ∨
      (Charged (reserve s.cfg j) s t ∧ t.cfg = s.cfg ∧ (t.run = .running → 0 ≤ t.t)) := by
  rcases running_result hrun h with hdefer | ⟨i, u, hfetch, hexec, hresult, hend⟩
  · exact .inl hdefer
  · have hcharged : (∃ r, u = s.defer r) ∨ Charged (reserve s.cfg j) s u := by
      rcases fetch_isa hfetch with ⟨hsel, hisa⟩ | ⟨hsel, hisa⟩
      · obtain rfl : j = .primary := by rw [hsel] at hj; cases hj; rfl
        exact exec_primary_charged hwf ht hisa hexec
      · obtain rfl : j = .secondary := by rw [interp_secondary hsel] at hj; cases hj; rfl
        exact exec_secondary_charged hwf ht hisa hexec
    rcases hcharged with ⟨r, rfl⟩ | hcharged
    · exact absurd (hresult.run.trans hrun) (by simp)
    · refine .inr ?_
      rcases hend with ⟨-, -, -, rfl⟩ | ⟨-, -, rfl⟩ | ⟨-, hroom, rfl⟩
      · exact ⟨⟨hcharged.1, hcharged.2⟩, hresult.cfg, fun hr => absurd hr (by simp)⟩
      · exact ⟨⟨hcharged.1, hcharged.2⟩, hresult.cfg, fun hr => absurd hr (by simp)⟩
      · exact ⟨hcharged, hresult.cfg, fun _ => hroom⟩

/-- A running step that answers a next state has found a legal selector. -/
theorem interp_of_running_step (hrun : s.run = .running) (h : step s = .next t) : ∃ j, interp s.sel = some j := by
  by_cases h0 : s.sel = 0x00#8
  · exact ⟨.primary, by rw [h0]; rfl⟩
  by_cases h1 : s.sel = 0x01#8
  · exact ⟨.secondary, interp_secondary (.inl h1)⟩
  by_cases h2 : s.sel = 0x02#8
  · exact ⟨.secondary, interp_secondary (.inr h2)⟩
  · rw [step_reserved hrun h0 h1 h2] at h
    cases h

/-! ### The entry of a slice -/

theorem entryTicks_bounds {c : Config} {j : Interp} {n : Int} (h : budgetLegal c j n = true) :
    0 ≤ entryTicks c j n ∧ entryTicks c j n ≤ c.tmax := by
  rw [budgetLegal_iff] at h
  rw [entryTicks_eq]
  omega

/-- The reserve of either interpreter fits below zero in the signed range. -/
theorem reserve_le {c : Config} (hwf : c.TicksWf) (j : Interp) : (reserve c j : Int) ≤ 2 ^ (c.wT - 1) := by
  cases j with
  | primary => exact_mod_cast hwf.reserveP.2
  | secondary => exact_mod_cast hwf.reserveS.2

/-! ### The invariant -/

/-- The tick constraints hold and T is in its range: what a step keeps. -/
structure TicksInvariant (s : State) : Prop where
  wf : s.cfg.TicksWf
  good : TicksGood s

/-- The invariant speaks of the configuration, T and RUN only. -/
theorem TicksInvariant.congr (h : TicksInvariant s) (hcfg : t.cfg = s.cfg) (ht : t.t = s.t)
    (hrun : t.run = .running → s.run = .running) : TicksInvariant t := by
  obtain ⟨hwf, hlow, hhigh, hroom⟩ := h
  rw [← hcfg] at hwf hlow hhigh
  rw [← ht] at hlow hhigh hroom
  exact ⟨hwf, hlow, hhigh, hroom ∘ hrun⟩

theorem running_keeps_ticks (hrun : s.run = .running) (hinv : TicksInvariant s) (h : step s = .next t) :
    TicksInvariant t := by
  obtain ⟨j, hj⟩ := interp_of_running_step hrun h
  obtain ⟨hwf, hgood⟩ := hinv
  rcases running_charged hwf (hgood.room hrun) hrun hj h with ⟨r, rfl⟩ | ⟨hcharged, hcfg, hroom⟩
  · exact TicksInvariant.congr ⟨hwf, hgood⟩ rfl rfl fun _ => hrun
  · refine ⟨hcfg ▸ hwf, ?_, ?_, hroom⟩
    · rw [hcfg]; have := reserve_le hwf j; have := hcharged.reserve; omega
    · rw [hcfg]; have := hgood.high; have := hcharged.spends; omega

theorem runCommand_keeps_ticks {c : Command} (hinv : TicksInvariant s) (h : runCommand c s = .next t) :
    TicksInvariant t := by
  rcases command_cases h with rfl | ⟨v, -, -, rfl⟩ | ⟨a, rfl⟩ | ⟨j, b, -, hb, rfl⟩ | ⟨a, v, rfl⟩
  · exact hinv.congr rfl rfl fun hr => absurd hr (by simp [resetCommand])
  · exact hinv.congr rfl rfl id
  · exact hinv.congr rfl rfl id
  · have hlegal : budgetLegal s.cfg j (budgetCycles s.cfg j b) = true := by
      rcases hb with rfl | hb
      · exact budgetLegal_unbounded
      · exact hb
    obtain ⟨hlow, hhigh⟩ := entryTicks_bounds hlegal
    exact ⟨hinv.wf, (Int.neg_nonpos_of_nonneg (by positivity)).trans hlow, hhigh, fun _ => hlow⟩
  · exact hinv.congr (by simp) (by simp) (by simp)

/-- Settles O55: a running step spends at least a tick and no more than its reserve, or defers; START_SLICE starts
between 0 and TMAX. -/
theorem stepKeepsTicksGood : Obligations.StepKeepsTicksGood := by
  unfold Obligations.StepKeepsTicksGood
  refine ⟨fun s t hwf hgood hstep => ?keeps, fun s t j hwf hgood hrun hj hstep => ?charges⟩
  case keeps =>
    have hinv : TicksInvariant t := step_keeps (P := TicksInvariant) (fun _ _ hinv => hinv.congr rfl rfl id)
      running_keeps_ticks runCommand_keeps_ticks ⟨hwf, hgood⟩ hstep
    exact ⟨hinv.good, hinv.wf⟩
  case charges =>
    have hroom := hgood.room hrun
    rcases running_charged hwf hroom hrun hj hstep with ⟨r, rfl⟩ | ⟨hcharged, -⟩
    · exact ⟨by rw [State.defer_t]; omega, .inr ⟨r, rfl⟩⟩
    · exact ⟨hcharged.reserve, .inl hcharged.spends⟩

end Sys2Proof.Machine
end

section
/-! What a step leaves alone, set by set (10_state.md; 43_sys.md R223; 44_secondary.md R240, R294; 60_exceptions.md
R342): the outcomes of a running step, the protected registers, the secondary step, and the memory that an instruction
which stores nothing leaves. -/

namespace Sys2Proof.Machine

variable {s t : State} {i : Instr}

/-- Settles O34: a SYS that has not deferred has charged its routine's report. -/
theorem sysBudgetSafety : Obligations.SysBudgetSafety := by
  unfold Obligations.SysBudgetSafety
  intro d s t _ hexec hrun
  rcases exec_sys_charged hexec with rfl | ⟨⟨hspends, hreserve⟩, hmax⟩
  · exact absurd hrun (by simp)
  · exact ⟨hspends, hmax, hreserve⟩

/-- Settles O10: `running_result` names the four ways a running step ends. -/
theorem runningStepOutcomes : Obligations.RunningStepOutcomes := by
  unfold Obligations.RunningStepOutcomes
  intro s t hrun hstep
  rcases running_result hrun hstep with ⟨r, rfl⟩ | ⟨i, u, -, -, hexec, hend⟩
  · exact ⟨rfl, .inr (.inr (.inr ⟨r, rfl⟩))⟩
  have hanswer : ∀ r, (u.exitSlice r).answer = some (.sliceExit r s.sliceN) := fun r => by
    rw [State.exitSlice_answer, hexec.sliceN]
  rcases hend with ⟨j, hj, hne, rfl⟩ | ⟨hsame, hneg, rfl⟩ | ⟨hsame, hroom, rfl⟩
  · exact ⟨hexec.sliceN, .inr (.inr (.inl ⟨rfl, hanswer _, fun hsame => hne (hj.symm.trans hsame)⟩))⟩
  · exact ⟨hexec.sliceN, .inr (.inl ⟨rfl, hanswer _, hsame, hneg⟩)⟩
  · exact ⟨hexec.sliceN, .inl ⟨hexec.run.trans hrun, hexec.answer, hsame, hroom⟩⟩

/-! ### The protected registers -/

theorem sameProtected_defer (s : State) (r : DeferReason) : SameProtected s (s.defer r) :=
  ⟨rfl, rfl, rfl, rfl, rfl, rfl⟩

theorem ExecResult.sameProtected (h : ExecResult s t) : SameProtected s t :=
  ⟨h.cfg, h.ipc, h.iac, h.isel, h.sliceN, h.pending⟩

theorem SameProtected.exitSlice (h : SameProtected s t) (r : ExitReason) : SameProtected s (t.exitSlice r) :=
  ⟨h.cfg, h.ipc, h.iac, h.isel, h.sliceN, h.pending⟩

/-- INSVC is kept, or cleared by an RTI that puts PC and AC back (60_exceptions.md R338). -/
def InsvcKeptOrCleared (i : Instr) (s t : State) : Prop :=
  t.insvc = s.insvc ∨ (i = .rti ∧ t.insvc = false ∧ t.pc = s.ipc ∧ t.ac = s.iac)

theorem exec_insvc (h : exec i s = .next t) : InsvcKeptOrCleared i s t := by
  cases hrow : secondaryTable i with
  | some row =>
    obtain ⟨op, o, m⟩ := row
    rcases secondary_frame hrow h with ⟨-, -, rfl⟩ | ⟨-, -, u, hframe, rfl⟩ | ⟨-, u, hframe, rfl⟩
    · exact .inl rfl
    · exact .inl hframe.control.insvc
    · exact .inl hframe.control.insvc
  | none =>
    rcases primary_cases i with ⟨d, rfl⟩ | rfl | ⟨hsys, hrti⟩
    · obtain ⟨-, ⟨-, rfl⟩ | ⟨-, slot, -, -, -, v, r, hroutine, -, -, rfl⟩⟩ := execSys_next h
      · exact .inl rfl
      · exact .inl (runRoutine_frame hroutine).insvc
    · rcases execRti_next h with ⟨-, rfl⟩ | ⟨-, -, rfl⟩
      · exact .inl rfl
      · exact .inr ⟨rfl, rfl, rfl, rfl⟩
    · obtain ⟨len, c, eff, hshape, -, hframe⟩ := exec_primary hrow hsys hrti s
      rw [hshape] at h
      obtain ⟨u, hu, rfl⟩ := primaryStep_next.mp h
      exact .inl (hframe _ _ hu).control.insvc

theorem running_protects (hrun : s.run = .running) (h : step s = .next t) :
    SameProtected s t ∧ (t.insvc = s.insvc ∨ (t.insvc = false ∧ s.sel = 0x00#8 ∧ t.pc = s.ipc ∧ t.ac = s.iac)) := by
  rcases running_ends hrun h with ⟨r, rfl⟩ | ⟨i, u, hfetch, hexec, hresult, hend⟩
  · exact ⟨sameProtected_defer s r, .inl rfl⟩
  have hinsvc : u.insvc = s.insvc ∨ (u.insvc = false ∧ s.sel = 0x00#8 ∧ u.pc = s.ipc ∧ u.ac = s.iac) := by
    rcases exec_insvc hexec with hkept | ⟨rfl, hcleared, hpc, hac⟩
    · exact .inl hkept
    · rcases fetch_isa hfetch with ⟨hsel, -⟩ | ⟨-, hisa⟩
      · exact .inr ⟨hcleared, hsel, hpc, hac⟩
      · cases hisa
  have hprotected := hresult.sameProtected
  rcases hend with rfl | ⟨r, rfl⟩
  · exact ⟨hprotected, hinsvc⟩
  · exact ⟨hprotected.exitSlice r, hinsvc⟩

/-- With the reference routines in the slots, TMP holds `v`: what every step keeps (10_state.md R25). -/
structure TmpUnused (v : Byte) (s : State) : Prop where
  slots : ReferenceSlots s.cfg
  tmp : s.tmp = v

theorem TmpUnused.congr {v : Byte} (h : TmpUnused v s) (hcfg : t.cfg = s.cfg) (htmp : t.tmp = s.tmp) :
    TmpUnused v t :=
  ⟨hcfg ▸ h.slots, htmp.trans h.tmp⟩

theorem running_keeps_tmp {v : Byte} (hrun : s.run = .running) (hinv : TmpUnused v s) (h : step s = .next t) :
    TmpUnused v t := by
  rcases running_ends hrun h with ⟨r, rfl⟩ | ⟨i, u, -, -, hexec, hend⟩
  · exact hinv.congr rfl rfl
  have hu : TmpUnused v u := hinv.congr hexec.cfg (hexec.tmp hinv.slots)
  rcases hend with rfl | ⟨r, rfl⟩
  · exact hu
  · exact hu.congr rfl rfl

theorem runCommand_keeps_tmp {v : Byte} {c : Command} (hinv : TmpUnused v s) (h : runCommand c s = .next t) :
    TmpUnused v t := by
  rcases command_cases h with rfl | ⟨w, -, -, rfl⟩ | ⟨a, rfl⟩ | ⟨j, b, -, -, rfl⟩ | ⟨a, w, rfl⟩
  · exact hinv.congr rfl rfl
  · exact hinv.congr rfl rfl
  · exact hinv.congr rfl rfl
  · exact hinv.congr rfl rfl
  · exact hinv.congr (by simp) (by simp)

/-- Settles O57: a running step protects what the instruction it runs protects, and RTI is a primary instruction; TMP
is written by no instruction, no command and no reference routine. -/
theorem stepProtects : Obligations.StepProtects := by
  unfold Obligations.StepProtects
  refine ⟨fun s t hrun hstep => running_protects hrun hstep, fun s t hslots hstep => ?tmp⟩
  have hinv : TmpUnused s.tmp t := step_keeps (P := TmpUnused s.tmp) (fun _ _ hinv => hinv.congr rfl rfl)
    running_keeps_tmp runCommand_keeps_tmp ⟨hslots, rfl⟩ hstep
  exact hinv.tmp

/-! ### The secondary step -/

/-- What a secondary instruction leaves alone at either of its steps. -/
structure SecondaryFrame (s t : State) : Prop where
  pc : t.pc = s.pc
  acHigh : hiByte t.ac = hiByte s.ac
  tmp : t.tmp = s.tmp
  insvc : t.insvc = s.insvc

theorem exec_secondaryFrame (hi : i.isa = .secondary) (h : exec i s = .next t) : SecondaryFrame s t := by
  obtain ⟨op, o, m, hrow⟩ := exists_row_of_secondary hi
  rcases secondary_frame hrow h with ⟨-, -, rfl⟩ | ⟨-, -, u, hframe, rfl⟩ | ⟨-, u, hframe, rfl⟩
  · exact ⟨rfl, rfl, rfl, rfl⟩
  · exact ⟨hframe.pc, congrArg hiByte hframe.ac, hframe.control.tmp, hframe.control.insvc⟩
  · exact ⟨hframe.pc, hframe.acHigh, hframe.control.tmp, hframe.control.insvc⟩

/-- Settles O58: with SEL not 0x00 the step runs a secondary instruction, and the end of a step writes RUN and the
answer only. -/
theorem secondaryStepPreserves : Obligations.SecondaryStepPreserves := by
  unfold Obligations.SecondaryStepPreserves
  intro s t hrun hsel hstep
  have hprotected : SameProtected s t := (running_protects hrun hstep).1
  suffices hframe : SecondaryFrame s t from ⟨hframe.pc, hframe.acHigh, hframe.tmp, hframe.insvc, hprotected⟩
  rcases running_ends hrun hstep with ⟨r, rfl⟩ | ⟨i, u, hfetch, hexec, -, hend⟩
  · exact ⟨rfl, rfl, rfl, rfl⟩
  have hu : SecondaryFrame s u := by
    rcases fetch_isa hfetch with ⟨hprimary, -⟩ | ⟨-, hisa⟩
    · exact absurd hprimary hsel
    · exact exec_secondaryFrame hisa hexec
  rcases hend with rfl | ⟨r, rfl⟩
  · exact hu
  · exact ⟨hu.pc, hu.acHigh, hu.tmp, hu.insvc⟩

/-! ### Instructions that store nothing -/

/-- What an instruction that stores nothing keeps; outside the SCRATCH window MemRead sees no more than this. -/
structure Quiet (s t : State) : Prop where
  cfg : t.cfg = s.cfg
  mem : t.mem = s.mem
  sysfn : t.sysfn = s.sysfn

theorem Quiet.sameReadsOutsideScratch (h : Quiet s t) : SameReadsOutsideScratch s t := by
  intro addr hout
  calc t.memRead addr
    _ = (t.setScratch s.scratch).memRead addr := (t.memRead_setScratch s.scratch (h.cfg ▸ hout)).symm
    _ = s.memRead addr := State.memRead_congr (t := t.setScratch s.scratch) h.cfg h.sysfn rfl h.mem addr

/-- An operation that stores nothing writes registers only: each of its effects is such an update, or one after a read
of the operand or a pull. -/
theorem Operation.effect_quiet (o : Operation) (hquiet : o.storing = false) (h : o.effect s = .ok t) : Quiet s t := by
  have write : ∀ {u : State},
      { u with ac := s.ac, lr := s.lr, sp := s.sp, scratch := s.scratch, sel := s.sel } = s → Quiet s u := by
    intro u hu
    exact ⟨by rw [← hu], by rw [← hu], by rw [← hu]⟩
  cases o <;>
    simp only [Operation.effect, loadA, loadX, loadY, adcEffect, sbcEffect, cmpEffect, putX, putY, putA, pullA,
      pullFlags, branchIf, leaveSecondary, State.pull8, do_ok, Except.ok.injEq, Prod.exists, Prod.mk.injEq] at h
  case sta | stx | sty | pha | php => cases hquiet
  case pla | plp => obtain ⟨v, u, ⟨w, -, rfl, rfl⟩, rfl⟩ := h; exact write rfl
  case bpl | bmi | bvc | bvs | bcc | bcs | bne | beq => obtain ⟨d, -, rfl⟩ := h; split_ifs <;> exact write rfl
  case lda | ldx | ldy | adc | sbc | cmp => obtain ⟨m, -, rfl⟩ := h; exact write rfl
  all_goals subst h; exact write rfl

theorem exec_secondary_quiet {op : Byte} {o : Operation} {m : Mode} (hrow : secondaryTable i = some (op, o, m))
    (hquiet : storing i = false) (h : exec i s = .next t) : Quiet s t := by
  have ho : o.storing = false := by simpa [storing, hrow] using hquiet
  by_cases hsel : s.sel = 0x02#8
  · rw [exec_at_execute hrow hsel] at h
    obtain ⟨u, hu, rfl⟩ := chargeResult_next.mp h
    have hframe := o.effect_quiet ho hu
    exact ⟨hframe.cfg, hframe.mem, hframe.sysfn⟩
  · rcases secondary_frame hrow h with ⟨-, -, rfl⟩ | ⟨-, -, u, hframe, rfl⟩ | ⟨hexec, -⟩
    · exact ⟨rfl, rfl, rfl⟩
    · exact ⟨hframe.control.cfg, hframe.mem, hframe.sysfn⟩
    · exact absurd hexec hsel

theorem exec_primary_quiet (hrow : secondaryTable i = none) (hquiet : storing i = false) (h : exec i s = .next t) :
    Quiet s t ∧ t.scratch = s.scratch := by
  rcases primary_cases i with ⟨d, rfl⟩ | rfl | ⟨hsys, hrti⟩
  · cases hquiet
  · rcases execRti_next h with ⟨-, rfl⟩ | ⟨-, -, rfl⟩ <;> exact ⟨⟨rfl, rfl, rfl⟩, rfl⟩
  · obtain ⟨len, c, eff, hshape, -, hframe⟩ := exec_primary hrow hsys hrti s
    rw [hshape] at h
    obtain ⟨u, hu, rfl⟩ := primaryStep_next.mp h
    obtain ⟨hmem, hsysfn, hscratch⟩ := (hframe _ _ hu).quiet hquiet
    exact ⟨⟨(hframe _ _ hu).control.cfg, hmem, hsysfn⟩, hscratch⟩

/-- Settles O59: such an instruction is quiet, and one of the primary set leaves SCRATCH too. -/
theorem nonStoringKeepsMemory : Obligations.NonStoringKeepsMemory := by
  unfold Obligations.NonStoringKeepsMemory
  intro i s t hquiet hexec
  cases hrow : secondaryTable i with
  | some row =>
    have hframe := exec_secondary_quiet hrow hquiet hexec
    have hsecondary : i.isa ≠ .primary := fun hi => by simp [(isa_primary_iff i).mp hi] at hrow
    exact ⟨fun hi => absurd hi hsecondary, hframe.sameReadsOutsideScratch, hframe.mem, hframe.sysfn⟩
  | none =>
    obtain ⟨hframe, hscratch⟩ := exec_primary_quiet hrow hquiet hexec
    exact ⟨fun _ => State.memRead_congr hframe.cfg hframe.sysfn hscratch hframe.mem, hframe.sameReadsOutsideScratch,
      hframe.mem, hframe.sysfn⟩

end Sys2Proof.Machine
end

section
/-! The SYS call (43_sys.md R210 to R218): the slot table, the stops of an admitted SYS in their order, and the contract
of a native routine. -/

namespace Sys2Proof.Machine

/-! ### The slot table (43_sys.md R218) -/

/-- The slots stand `stride` apart from `base` on, so an address is that of one slot at most. -/
theorem findSlot_eq_some_iff {stride : Nat} (hstride : 1 ≤ stride) {f : Word} {base : Nat} {slots : List Slot}
    {slot : Slot} : findSlot stride f base slots = some slot ↔
      ∃ k : Nat, slots[k]? = some slot ∧ f.toNat = base + stride * k := by
  induction slots generalizing base with
  | nil => simp [findSlot]
  | cons first rest ih =>
    by_cases hbase : f.toNat = base
    · rw [findSlot, if_pos hbase]
      constructor
      · exact fun hfirst => ⟨0, hfirst, hbase⟩
      · rintro ⟨k, hk, hf⟩
        have hzero : k = 0 := by
          by_contra hpos
          have := Nat.mul_pos hstride (Nat.pos_of_ne_zero hpos)
          omega
        subst hzero
        exact hk
    · rw [findSlot, if_neg hbase, ih]
      constructor
      · rintro ⟨k, hk, hf⟩
        exact ⟨k + 1, hk, by rw [hf, Nat.mul_succ]; omega⟩
      · rintro ⟨k, hk, hf⟩
        cases k with
        | zero => exact absurd hf hbase
        | succ k => exact ⟨k, hk, by rw [hf, Nat.mul_succ]; omega⟩

/-- Settles O27: `findSlot_eq_some_iff` at SYS_BASE; the positions of the table are those below NSLOTS. -/
theorem slotTable : Obligations.SlotTable := by
  unfold Obligations.SlotTable
  intro c f hstride
  have hsome : ∀ slot, slotOf c f = some slot ↔
      ∃ k : Nat, c.slots[k]? = some slot ∧ f.toNat = c.sysBase + c.sysStride * k :=
    fun slot => findSlot_eq_some_iff hstride
  refine ⟨hsome, ?none⟩
  rw [Option.eq_none_iff_forall_ne_some]
  constructor
  · intro hnone k hk hf
    exact hnone _ ((hsome _).mpr ⟨k, List.getElem?_eq_getElem hk, hf⟩)
  · intro hnone slot hslot
    obtain ⟨k, hk, hf⟩ := (hsome slot).mp hslot
    exact hnone k (List.getElem?_eq_some_iff.mp hk).1 hf

/-! ### The stops of an admitted SYS (43_sys.md R210, R211, R214, R217) -/

section Stops

variable {d : Byte} {s : State} {slot : Slot}

theorem slotOf_setPc (s : State) (w : Word) : slotOf (s.setPc w).cfg (s.setPc w).sysfn = slotOf s.cfg s.sysfn := rfl

theorem exec_sys_noSlot (hd : d.toInt ≤ 0) (ht : 0 ≤ s.t + d.toInt) (hslot : slotOf s.cfg s.sysfn = none) :
    exec (.sys d) s = .fault .sysfnNotASlot := by
  rw [exec_sys_admitted hd ht, callSlot, slotOf_setPc, hslot]

theorem exec_sys_underdeclared (hd : d.toInt ≤ 0) (ht : 0 ≤ s.t + d.toInt) (hslot : slotOf s.cfg s.sysfn = some slot)
    (hextra : -d.toInt < slot.extra) : exec (.sys d) s = .fault .sysUnderdeclared := by
  rw [exec_sys_admitted hd ht, callSlot, slotOf_setPc, hslot]
  exact if_pos hextra

theorem exec_sys_routineFault {f : Fault} (hd : d.toInt ≤ 0) (ht : 0 ≤ s.t + d.toInt)
    (hslot : slotOf s.cfg s.sysfn = some slot) (hextra : (slot.extra : Int) ≤ -d.toInt)
    (hroutine : runRoutine slot (s.setPc (s.pc + 2)) = .error f) : exec (.sys d) s = .fault f := by
  rw [exec_sys_admitted hd ht, callSlot, slotOf_setPc, hslot]
  simp only [if_neg (Int.not_lt.mpr hextra), hroutine]

theorem exec_sys_overrun {v : State} {r : Int} (hd : d.toInt ≤ 0) (ht : 0 ≤ s.t + d.toInt)
    (hslot : slotOf s.cfg s.sysfn = some slot) (hextra : (slot.extra : Int) ≤ -d.toInt)
    (hroutine : runRoutine slot (s.setPc (s.pc + 2)) = .ok (v, r)) (hr : ¬(1 ≤ -r ∧ -r ≤ s.cfg.maxtP - d.toInt)) :
    exec (.sys d) s = .fault .overrun := by
  have hcfg : v.cfg = s.cfg := (runRoutine_frame hroutine).cfg
  rw [exec_sys_admitted hd ht, callSlot, slotOf_setPc, hslot]
  simp only [if_neg (Int.not_lt.mpr hextra), hroutine, hcfg, if_neg hr]

theorem runRoutine_native {id : Nat} (h : slot.routine = .native id) (u : State) :
    runRoutine slot u = runNative (nativeRoutine id (nativeView u)) u := by
  rw [runRoutine, h]

end Stops

/-- Settles O28: one equation for each stop and one for the call that completes, whose frame is that of its routine. -/
theorem sysCall : Obligations.SysCall := by
  unfold Obligations.SysCall
  refine ⟨fun d s hd ht => ⟨exec_sys_noSlot hd ht, fun slot hslot => ⟨exec_sys_underdeclared hd ht hslot,
      fun hextra => ⟨fun f => exec_sys_routineFault hd ht hslot hextra,
        fun v r => exec_sys_overrun hd ht hslot hextra⟩⟩⟩,
    fun d s v slot r hd ht hslot hextra hroutine hmin hmax => ?completes,
    fun slot id u hnative => ⟨runRoutine_native hnative u, rfl⟩⟩
  have hframe := runRoutine_frame hroutine
  exact ⟨exec_sys_completes hd ht hslot hextra hroutine hmin hmax, hframe.ticks, hframe.cfg, hframe.ipc, hframe.iac,
    hframe.isel, hframe.insvc, hframe.run⟩

/-! ### Updates that memory accesses do not see -/

/-- An update that MemRead does not see and that MemWrite commutes with. -/
structure Transparent (f : State → State) : Prop where
  read : ∀ s addr, (f s).memRead addr = s.memRead addr
  write : ∀ s addr v, (f s).memWrite addr v = f (s.memWrite addr v)

theorem Transparent.readByte {f : State → State} (hf : Transparent f) (s : State) (addr : Word) :
    (f s).readByte addr = s.readByte addr := by
  rw [State.readByte, hf.read, State.readByte]

theorem transparent_setPc (w : Word) : Transparent (State.setPc · w) :=
  ⟨fun s addr => State.memRead_setPc s w addr, fun s addr v => State.memWrite_setPc s addr w v⟩

/-- The copy does what it does whatever such an update has written. -/
theorem copyBytes_transparent {f : State → State} (hf : Transparent f) (n : Nat) (src dst : Word) (s : State) :
    copyBytes n src dst (f s) = (copyBytes n src dst s).map f := by
  induction n generalizing src dst s with
  | zero => rfl
  | succ n ih =>
    rw [copyBytes, copyBytes, hf.readByte]
    rcases s.readByte_cases src with ⟨v, -, e⟩ | ⟨-, e⟩
    · rw [e, do_ok_eq, do_ok_eq, hf.write, ih]
    · rw [e, do_error_eq, do_error_eq]
      rfl

/-! ### What no routine sees (43_sys.md R215) -/

/-- T, the save area, INSVC and RUN overwritten: what is not among the things a routine may read. -/
def overwriteUnseen (n : Int) (ipc iac : Word) (isel : Byte) (insvc : Bool) (run : Run) (s : State) : State :=
  { s with t := n, ipc := ipc, iac := iac, isel := isel, insvc := insvc, run := run }

/-- An update that no routine sees: no memory access does, no register a routine reads or writes is touched. -/
structure Unseen (f : State → State) : Prop extends Transparent f where
  view : ∀ s, nativeView (f s) = nativeView s
  scratch : ∀ s, (f s).scratch = s.scratch
  setScratch : ∀ s x, (f s).setScratch x = f (s.setScratch x)
  setSysfn : ∀ s v, (f s).setSysfn v = f (s.setSysfn v)
  reissue : ∀ s, reissue (f s) = f (reissue s)
  runSecondary : ∀ s, runSecondaryRoutine (f s) = f (runSecondaryRoutine s)
  multiply : ∀ s, multiplyRoutine (f s) = f (multiplyRoutine s)
  nativeReturn : ∀ r s, nativeReturn r (f s) = f (nativeReturn r s)

theorem unseen_overwriteUnseen (n : Int) (ipc iac : Word) (isel : Byte) (insvc : Bool) (run : Run) :
    Unseen (overwriteUnseen n ipc iac isel insvc run) where
  read s addr := State.memRead_congr rfl rfl rfl rfl addr
  write s addr v := by
    unfold overwriteUnseen State.memWrite State.setSysfn State.setScratch State.setMem
    split_ifs <;> rfl
  view _ := rfl
  scratch _ := rfl
  setScratch _ _ := rfl
  setSysfn _ _ := rfl
  reissue _ := rfl
  runSecondary _ := rfl
  multiply s := by
    unfold multiplyRoutine overwriteUnseen
    dsimp only
    split_ifs <;> rfl
  nativeReturn _ _ := rfl

section Unseen

variable {f : State → State}

theorem Unseen.runNative (hf : Unseen f) (p : NativeProgram) (s : State) :
    runNative p (f s) = (runNative p s).map (Prod.map f id) := by
  induction p generalizing s with
  | read addr next ih =>
    rw [Machine.runNative, Machine.runNative, hf.readByte]
    rcases s.readByte_cases addr with ⟨v, -, e⟩ | ⟨-, e⟩
    · rw [e, do_ok_eq, do_ok_eq, ih]
    · rw [e, do_error_eq, do_error_eq]
      rfl
  | write addr v next ih => rw [runNative_write, runNative_write, hf.write, ih]
  | writeScratch k v next ih =>
    rw [runNative_writeScratch, runNative_writeScratch, hf.scratch, hf.setScratch, ih]
  | writeSysfn v next ih => rw [runNative_writeSysfn, runNative_writeSysfn, hf.setSysfn, ih]
  | done r => rw [runNative_done, runNative_done, hf.nativeReturn]; rfl

theorem Unseen.copyRoutine (hf : Unseen f) (s : State) : copyRoutine (f s) = (copyRoutine s).map f := by
  unfold Machine.copyRoutine
  simp only [hf.scratch, copyBytes_transparent hf.toTransparent]
  cases copyBytes _ _ _ s with
  | error e => rfl
  | ok u =>
    simp only [Except.map, do_ok_eq, hf.scratch, hf.setScratch, hf.reissue]
    split_ifs <;> rfl

/-- What the routine of any slot does, or its stop, is the same whatever an unseen update has written. -/
theorem Unseen.runRoutine (hf : Unseen f) (slot : Slot) (s : State) :
    runRoutine slot (f s) = (runRoutine slot s).map (Prod.map f id) := by
  unfold Machine.runRoutine
  cases slot.routine with
  | placeholder => rfl
  | runSecondary => simp only [hf.runSecondary]; rfl
  | multiply16 => simp only [hf.multiply]; rfl
  | copyBytes =>
    simp only [hf.copyRoutine]
    cases Machine.copyRoutine s <;> rfl
  | native id => simp only [hf.view, hf.runNative]

end Unseen

/-! ### The contract (43_sys.md R215, R216) -/

/-- A native program runs as the routine of a slot that holds it, whatever the slot is. -/
def anyNativeSlot : Slot := ⟨"", 0, .native 0, 0⟩

/-- The registers and the memory a routine may write are all that it writes. -/
theorem RoutineFrame.registers {slot : Slot} {s v : State} (h : RoutineFrame slot s v) :
    { v with pc := s.pc, ac := s.ac, lr := s.lr, sp := s.sp, tmp := s.tmp, scratch := s.scratch, sysfn := s.sysfn,
             sel := s.sel, mem := s.mem } = s := by
  rw [h.cfg, h.ticks, h.ipc, h.iac, h.isel, h.insvc, h.run, h.sliceN, h.pending, h.answer]

theorem runNative_error {p : NativeProgram} {s : State} {f : Fault} (h : runNative p s = .error f) :
    f = .readUnwritten := by
  induction p generalizing s with
  | read addr next ih =>
    rcases s.readByte_cases addr with ⟨v, hv, -⟩ | ⟨hnone, -⟩
    · exact ih v (runNative_read_some hv ▸ h)
    · rw [runNative_read_none hnone] at h
      cases h
      rfl
  | write addr v next ih => exact ih h
  | writeScratch k v next ih => exact ih h
  | writeSysfn v next ih => exact ih h
  | done r => cases h

/-- SEL after the return: as it was, or one of the two entries of the secondary interpreter. -/
theorem handOverSel_eq {handOver : Option HandOver} {before after : Byte}
    (h : (handOver = none ∧ after = before) ∨ (handOver = some .fetch ∧ after = 0x01#8) ∨
      (handOver = some .execute ∧ after = 0x02#8)) : handOverSel before handOver = after := by
  rcases h with ⟨rfl, rfl⟩ | ⟨rfl, rfl⟩ | ⟨rfl, rfl⟩ <;> rfl

/-- Settles O60: the equations of a program's actions, the frame of its run, and that an unseen update changes neither
the run nor its stop. -/
theorem nativeContract : Obligations.NativeContract := by
  unfold Obligations.NativeContract
  refine ⟨fun s addr next => ⟨fun v => runNative_read_some, runNative_read_none⟩,
    fun s p => ⟨fun addr v => rfl, fun k v => rfl, fun v => rfl⟩, fun s r sel hsel => ?returns,
    fun p s v r hrun => ?frame, fun p s f => runNative_error,
    fun slot s n ipc iac isel insvc run => ⟨fun v r hrun => ?unseen, fun f hstop => ?unseenStop⟩⟩
  case returns =>
    rw [← handOverSel_eq hsel]
    rfl
  case frame =>
    have hframe := runNative_frame (slot := anyNativeSlot) rfl hrun
    exact ⟨hframe.registers, hframe.sel⟩
  case unseen =>
    exact ((unseen_overwriteUnseen n ipc iac isel insvc run).runRoutine slot s).trans (by rw [hrun]; rfl)
  case unseenStop =>
    exact ((unseen_overwriteUnseen n ipc iac isel insvc run).runRoutine slot s).trans (by rw [hstop]; rfl)

end Sys2Proof.Machine
end

section
/-! SYS_Multiply16 (43_sys.md R221, R224): one dispatch, and the sixteen that make a product. Dispatch k adds A0 * 2^k
to C where bit k of B is set, so that after k dispatches C = C0 + A0 * (B mod 2^k). -/

namespace Sys2Proof.Machine

variable {d : Byte} {s : State} {slot : Slot}

/-! ### One dispatch -/

/-- The SCRATCH words of the multiplication: A, B, C and MASK. -/
def multiplyScratch (a b c mask : Word) : Scratch :=
  { b0 := loByte a, b1 := hiByte a, b2 := loByte b, b3 := hiByte b, b4 := loByte c, b5 := hiByte c,
    b6 := loByte mask, b7 := hiByte mask }

/-- Every SCRATCH holds four words. -/
theorem scratch_eq_multiplyScratch (x : Scratch) : x =
    multiplyScratch (mkWord x.b1 x.b0) (mkWord x.b3 x.b2) (mkWord x.b5 x.b4) (mkWord x.b7 x.b6) := by
  simp [multiplyScratch]

/-- C after a dispatch. -/
def addMasked (a b c mask : Word) : Word := if b &&& mask ≠ 0 then c + a else c

theorem add_self_eq_mul_two (w : Word) : w + w = w * 2 := by bv_omega

/-- The routine on the four words: A and MASK are doubled, and the call is issued again until MASK is shifted out. -/
theorem multiplyRoutine_eq {a b c mask : Word} (hscratch : s.scratch = multiplyScratch a b c mask) :
    multiplyRoutine s = { s with
      pc := if mask * 2 ≠ 0 then s.pc - 2 else s.pc
      ac := if mask * 2 ≠ 0 then s.ac else addMasked a b c mask
      scratch := multiplyScratch (a * 2) b (addMasked a b c mask) (mask * 2) } := by
  have hwords : scratchWord s.scratch 0 = a ∧ scratchWord s.scratch 1 = b ∧ scratchWord s.scratch 2 = c ∧
      scratchWord s.scratch 3 = mask := by
    simp [hscratch, scratchWord, Scratch.get, multiplyScratch]
  obtain ⟨ha, hb, hc, hmask⟩ := hwords
  have hsum : (if b &&& mask = 0 then c else c + a) = addMasked a b c mask := by
    rw [addMasked, ite_not]
  have hstored : setScratchWord (setScratchWord (setScratchWord s.scratch 0 (a * 2)) 2 (addMasked a b c mask)) 3
      (mask * 2) = multiplyScratch (a * 2) b (addMasked a b c mask) (mask * 2) := by
    rw [hscratch]
    rfl
  unfold multiplyRoutine
  simp only [ha, hb, hc, hmask, hsum, add_self_eq_mul_two, hstored]
  by_cases hlast : mask * 2 = 0
  · simp only [hlast, if_true, ne_eq, not_true_eq_false, if_false]
    rfl
  · simp only [hlast, if_false, ne_eq, not_false_eq_true, if_true]
    rfl

theorem runRoutine_multiply (h : slot.routine = .multiply16) (u : State) :
    runRoutine slot u = .ok (multiplyRoutine u, slot.report) := by
  rw [runRoutine, h]

/-- The slot is designated, declared and SYS_Multiply16 with its report (43_sys.md R218, R221). -/
structure CallsMultiply (d : Byte) (slot : Slot) (s : State) : Prop where
  operand : d.toInt ≤ 0
  found : slotOf s.cfg s.sysfn = some slot
  declared : (slot.extra : Int) ≤ -d.toInt
  routine : slot.routine = .multiply16
  report : slot.report = -20
  bound : 20 ≤ s.cfg.maxtP - d.toInt

/-- The call rests on the configuration and SYSFN only, which no dispatch writes. -/
theorem CallsMultiply.congr {u : State} (h : CallsMultiply d slot s) (hcfg : u.cfg = s.cfg) (hsysfn : u.sysfn = s.sysfn) :
    CallsMultiply d slot u :=
  ⟨h.operand, by rw [hcfg, hsysfn]; exact h.found, h.declared, h.routine, h.report, by rw [hcfg]; exact h.bound⟩

theorem exec_sys_multiply {a b c mask : Word} (hcall : CallsMultiply d slot s) (ht : 0 ≤ s.t + d.toInt)
    (hscratch : s.scratch = multiplyScratch a b c mask) :
    exec (.sys d) s = .next { s with
      pc := if mask * 2 ≠ 0 then s.pc else s.pc + 2
      ac := if mask * 2 ≠ 0 then s.ac else addMasked a b c mask
      scratch := multiplyScratch (a * 2) b (addMasked a b c mask) (mask * 2)
      t := s.t - 20 } := by
  have hback : s.pc + 2 - 2 = s.pc := by bv_omega
  have hroutine := hcall.report ▸ runRoutine_multiply hcall.routine (s.setPc (s.pc + 2))
  have heq := multiplyRoutine_eq (s := s.setPc (s.pc + 2)) hscratch
  simp only [State.setPc_pc, hback] at heq
  rw [heq] at hroutine
  exact exec_sys_completes hcall.operand ht hcall.found hcall.declared hroutine (by decide) hcall.bound

/-- Settles O30: `exec_sys_multiply` with the four words read off SCRATCH. -/
theorem sysMultiplyStep : Obligations.SysMultiplyStep := by
  unfold Obligations.SysMultiplyStep
  intro d s slot hd ht hslot hextra hroutine hreport hmax a b c mask c' ha hb hc hmask hc'
  have hscratch : s.scratch = multiplyScratch a b c mask := by
    rw [ha, hb, hc, hmask]
    exact scratch_eq_multiplyScratch s.scratch
  have hsum : addMasked a b c mask = c' := hc'.symm
  have hkept : loByte b = s.scratch.b2 ∧ hiByte b = s.scratch.b3 := by simp [hb]
  rw [exec_sys_multiply ⟨hd, hslot, hextra, hroutine, hreport, hmax⟩ ht hscratch, hsum, multiplyScratch, hkept.1, hkept.2]

/-! ### The product -/

/-- What C has gained after `k` dispatches: A0 * (B mod 2^k). -/
def partialProduct (a b : Word) (k : Nat) : Word := a * BitVec.ofNat 16 (b.toNat % 2 ^ k)

/-- SCRATCH after `k` dispatches of a multiplication begun with MASK = 1. -/
def productScratch (a b c : Word) (k : Nat) : Scratch :=
  multiplyScratch (a * BitVec.twoPow 16 k) b (c + partialProduct a b k) (BitVec.twoPow 16 k)

theorem twoPow_mul_two (k : Nat) : BitVec.twoPow 16 k * 2 = BitVec.twoPow 16 (k + 1) := by
  apply BitVec.eq_of_toNat_eq
  simp [BitVec.toNat_mul, BitVec.toNat_twoPow, Nat.pow_succ, Nat.mul_mod]

theorem twoPow_ne_zero {k : Nat} (hk : k < 16) : BitVec.twoPow 16 k ≠ 0 := by
  intro h
  have hbit := congrArg (BitVec.getLsbD · k) h
  simp [hk] at hbit

/-- Bit k of B decides whether A0 * 2^k is added. -/
theorem addMasked_partialProduct (a b c : Word) {k : Nat} (hk : k < 16) :
    addMasked (a * BitVec.twoPow 16 k) b (c + partialProduct a b k) (BitVec.twoPow 16 k) =
      c + partialProduct a b (k + 1) := by
  have hsplit : b.toNat % 2 ^ (k + 1) = b.toNat % 2 ^ k + 2 ^ k * (b.getLsbD k).toNat := by
    rw [Nat.mod_pow_succ, ← Nat.toNat_testBit]
    rfl
  have hpow : BitVec.ofNat 16 (2 ^ k) = BitVec.twoPow 16 k := by
    apply BitVec.eq_of_toNat_eq
    simp [BitVec.toNat_twoPow]
  rw [addMasked, BitVec.and_twoPow, partialProduct, partialProduct, hsplit]
  cases b.getLsbD k with
  | false => simp
  | true =>
    rw [if_pos (by simpa using twoPow_ne_zero hk), Bool.toNat_true, Nat.mul_one, BitVec.ofNat_add, BitVec.mul_add, hpow,
      BitVec.add_assoc]

/-- One dispatch takes the SCRATCH of `k` dispatches to that of `k + 1`, and ends the call with the sixteenth. -/
theorem exec_sys_productScratch {a b c : Word} {k : Nat} (hk : k < 16) (hcall : CallsMultiply d slot s)
    (ht : 0 ≤ s.t + d.toInt) (hscratch : s.scratch = productScratch a b c k) :
    exec (.sys d) s = .next { s with
      pc := if k + 1 < 16 then s.pc else s.pc + 2
      ac := if k + 1 < 16 then s.ac else c + partialProduct a b (k + 1)
      scratch := productScratch a b c (k + 1)
      t := s.t - 20 } := by
  have hagain : BitVec.twoPow 16 (k + 1) ≠ 0 ↔ k + 1 < 16 := by
    refine ⟨fun hne => ?_, twoPow_ne_zero⟩
    by_contra hlast
    obtain rfl : k = 15 := by omega
    exact hne (by decide)
  rw [exec_sys_multiply hcall ht hscratch, addMasked_partialProduct a b c hk, BitVec.mul_assoc, twoPow_mul_two]
  simp only [hagain]
  rfl

/-- The same for a dispatch of the call as it is issued again, with the T that its slice gives. -/
theorem redispatch_succ {a b c : Word} {ticks : Nat → Int} {k : Nat} {left : Int} (hk : k < 16)
    (hcall : CallsMultiply d slot s) (ht : 0 ≤ ticks k + d.toInt)
    (h : redispatch d ticks k s = .next { s with scratch := productScratch a b c k, t := left }) :
    redispatch d ticks (k + 1) s = .next { s with
      pc := if k + 1 < 16 then s.pc else s.pc + 2
      ac := if k + 1 < 16 then s.ac else c + partialProduct a b (k + 1)
      scratch := productScratch a b c (k + 1)
      t := ticks k - 20 } := by
  rw [redispatch, h]
  exact exec_sys_productScratch (s := { s with scratch := productScratch a b c k, t := ticks k }) hk
    (hcall.congr rfl rfl) ht rfl

/-- Up to the sixteenth dispatch the call is issued again, whatever T each dispatch finds. -/
theorem redispatch_product {a b c : Word} {ticks : Nat → Int} (hcall : CallsMultiply d slot s)
    (hticks : ∀ k, 0 ≤ ticks k + d.toInt) (hscratch : s.scratch = productScratch a b c 0) {k : Nat} (hk : k < 16) :
    ∃ left : Int, redispatch d ticks k s = .next { s with scratch := productScratch a b c k, t := left } := by
  induction k with
  | zero => exact ⟨s.t, by rw [← hscratch]; rfl⟩
  | succ k ih =>
    obtain ⟨left, hk'⟩ := ih (by omega)
    refine ⟨ticks k - 20, ?_⟩
    rw [redispatch_succ (by omega) hcall (hticks k) hk']
    simp only [hk, if_true]

/-- Begun with MASK = 1 and nothing added, SCRATCH is that of no dispatch yet. -/
theorem productScratch_zero (a b c : Word) : productScratch a b c 0 = multiplyScratch a b c 1 := by
  have hone : BitVec.twoPow 16 0 = 1 := rfl
  simp [productScratch, partialProduct, hone, Nat.mod_one]

theorem partialProduct_sixteen (a b : Word) : partialProduct a b 16 = a * b := by
  rw [partialProduct, Nat.mod_eq_of_lt b.isLt, BitVec.ofNat_toNat, BitVec.setWidth_eq]

/-- After sixteen dispatches A and MASK are shifted out and C has gained A0 * B0. -/
theorem productScratch_sixteen (a b c : Word) : productScratch a b c 16 = multiplyScratch 0 b (c + a * b) 0 := by
  have hzero : BitVec.twoPow 16 16 = 0 := by decide
  rw [productScratch, partialProduct_sixteen, hzero]
  simp

/-- Settles O31: fifteen dispatches by induction, then the sixteenth, which ends the call. -/
theorem multiplyProduct : Obligations.MultiplyProduct := by
  unfold Obligations.MultiplyProduct
  intro d s slot ticks hd hticks hslot hextra hroutine hreport hmax hlow hhigh product hproduct
  have hcall : CallsMultiply d slot s := ⟨hd, hslot, hextra, hroutine, hreport, hmax⟩
  have hscratch : s.scratch = productScratch (mkWord s.scratch.b1 s.scratch.b0) (mkWord s.scratch.b3 s.scratch.b2)
      (mkWord s.scratch.b5 s.scratch.b4) 0 := by
    have hmask : mkWord s.scratch.b7 s.scratch.b6 = 1 := by rw [hlow, hhigh]; rfl
    rw [productScratch_zero, ← hmask]
    exact scratch_eq_multiplyScratch s.scratch
  refine ⟨?ends, fun k _ hk => ?goesOn⟩
  case ends =>
    obtain ⟨left, h15⟩ := redispatch_product hcall hticks hscratch (k := 15) (by decide)
    rw [redispatch_succ (by decide) hcall (hticks 15) h15, productScratch_sixteen, partialProduct_sixteen, ← hproduct]
    have hzero : loByte 0x0000#16 = 0x00#8 ∧ hiByte 0x0000#16 = 0x00#8 := by decide
    simp [multiplyScratch, hzero]
  case goesOn =>
    obtain ⟨left, hk'⟩ := redispatch_product hcall hticks hscratch hk
    exact ⟨_, hk', rfl, rfl⟩

end Sys2Proof.Machine
end

section
/-! SYS_CopyBytes (43_sys.md R222): the copy byte by byte, overlapping ranges included, and one dispatch of the call. -/

namespace Sys2Proof.Machine

variable {s u : State} {src dst : Word} {n : Nat}

/-! ### The addresses of a copy -/

/-- Offsets below 2^16 keep addresses apart. -/
theorem add_ofNat_ne (w : Word) {i j : Nat} (hi : i < 65536) (hj : j < 65536) (h : i ≠ j) :
    w + BitVec.ofNat 16 i ≠ w + BitVec.ofNat 16 j := by
  intro heq
  have hofNat := congrArg BitVec.toNat ((BitVec.add_right_inj w).mp heq)
  simp only [BitVec.toNat_ofNat] at hofNat
  omega

theorem add_ofNat_add (w : Word) (i j : Nat) :
    w + BitVec.ofNat 16 i + BitVec.ofNat 16 j = w + BitVec.ofNat 16 (i + j) := by
  rw [BitVec.add_assoc, BitVec.ofNat_add]

/-! ### What the copy leaves (43_sys.md R222) -/

/-- A copy of one more byte is the copy so far, one read and one write. -/
theorem copyBytes_succ_ok (h : copyBytes (n + 1) src dst s = .ok u) :
    ∃ w v, copyBytes n src dst s = .ok w ∧ w.memRead (src + BitVec.ofNat 16 n) = some v ∧
      u = w.memWrite (dst + BitVec.ofNat 16 n) v := by
  rcases copyBytes_succ_cases n src dst s with ⟨w, v, hw, hv, e⟩ | ⟨w, -, -, e⟩ | ⟨f, -, e⟩ <;> cases e.symm.trans h
  exact ⟨w, v, hw, hv, rfl⟩

/-- A byte that is no destination byte reads as before. -/
theorem copyBytes_memRead_other {b : Word} (h : copyBytes n src dst s = .ok u)
    (hb : ∀ i < n, b ≠ dst + BitVec.ofNat 16 i) : u.memRead b = s.memRead b := by
  induction n generalizing u with
  | zero => cases h; rfl
  | succ n ih =>
    obtain ⟨w, v, hw, -, rfl⟩ := copyBytes_succ_ok h
    rw [State.memRead_memWrite_other w v (hb n (by omega)), ih hw fun i hi => hb i (by omega)]

/-- Destination byte i reads what source byte i read after the first i bytes were copied: no later byte of the copy
goes to the same address. -/
theorem copyBytes_memRead_dst (hn : n ≤ 65536) (h : copyBytes n src dst s = .ok u) {i : Nat} (hi : i < n) :
    ∃ w v, copyBytes i src dst s = .ok w ∧ w.memRead (src + BitVec.ofNat 16 i) = some v ∧
      u.memRead (dst + BitVec.ofNat 16 i) = some v := by
  induction n generalizing u with
  | zero => omega
  | succ n ih =>
    obtain ⟨w, v, hw, hv, rfl⟩ := copyBytes_succ_ok h
    rcases Nat.lt_succ_iff_lt_or_eq.mp hi with hlt | rfl
    · obtain ⟨x, b, hx, hb, hread⟩ := ih (by omega) hw hlt
      exact ⟨x, b, hx, hb, (State.memRead_memWrite_other w v
        (add_ofNat_ne dst (by omega) (by omega) (by omega))).trans hread⟩
    · exact ⟨w, v, hw, hv, State.memRead_memWrite_same w _ v⟩

/-- A source byte that no earlier byte of the copy went to is copied as it read at first. -/
theorem copyBytes_memRead_fresh (hn : n ≤ 65536) (h : copyBytes n src dst s = .ok u) {i : Nat} (hi : i < n)
    (hfresh : ∀ j < i, src + BitVec.ofNat 16 i ≠ dst + BitVec.ofNat 16 j) :
    u.memRead (dst + BitVec.ofNat 16 i) = s.memRead (src + BitVec.ofNat 16 i) := by
  obtain ⟨w, v, hw, hv, hread⟩ := copyBytes_memRead_dst hn h hi
  rw [hread, ← hv, copyBytes_memRead_other hw hfresh]

/-- A destination that starts k bytes after the source repeats the first k bytes: source byte i with k ≤ i is
destination byte i - k, already copied. -/
theorem copyBytes_memRead_repeats {k : Nat} (hk : 0 < k) (hk4 : k ≤ 4) (hdst : dst = src + BitVec.ofNat 16 k)
    (hn : n ≤ 4) (h : copyBytes n src dst s = .ok u) {i : Nat} (hi : i < n) :
    u.memRead (dst + BitVec.ofNat 16 i) = s.memRead (src + BitVec.ofNat 16 (i % k)) := by
  induction i using Nat.strong_induction_on generalizing n u with
  | _ i ih =>
    by_cases hfirst : i < k
    · rw [Nat.mod_eq_of_lt hfirst]
      refine copyBytes_memRead_fresh (by omega) h hi fun j hj => ?_
      rw [hdst, add_ofNat_add]
      exact add_ofNat_ne src (by omega) (by omega) (by omega)
    · obtain ⟨w, v, hw, hv, hread⟩ := copyBytes_memRead_dst (by omega) h hi
      have hsource : src + BitVec.ofNat 16 i = dst + BitVec.ofNat 16 (i - k) := by
        rw [hdst, add_ofNat_add, Nat.add_sub_of_le (by omega)]
      rw [hread, ← hv, hsource, ih (i - k) (by omega) (by omega) hw (by omega), ← Nat.mod_eq_sub_mod (by omega)]

/-! ### Where the copy completes -/

/-- Source byte i holds a value, or is the destination of an earlier byte. -/
def SourceReady (s : State) (src dst : Word) (i : Nat) : Prop :=
  s.memRead (src + BitVec.ofNat 16 i) ≠ none ∨ ∃ j < i, src + BitVec.ofNat 16 i = dst + BitVec.ofNat 16 j

theorem copyBytes_completes (hn : n ≤ 65536) (h : ∀ i < n, SourceReady s src dst i) :
    ∃ u, copyBytes n src dst s = .ok u := by
  induction n with
  | zero => exact ⟨s, rfl⟩
  | succ n ih =>
    obtain ⟨w, hw⟩ := ih (by omega) fun i hi => h i (by omega)
    have hready : w.memRead (src + BitVec.ofNat 16 n) ≠ none := by
      by_cases hcopied : ∃ j < n, src + BitVec.ofNat 16 n = dst + BitVec.ofNat 16 j
      · obtain ⟨j, hj, hsource⟩ := hcopied
        obtain ⟨-, v, -, -, hread⟩ := copyBytes_memRead_dst (by omega) hw hj
        simp [hsource, hread]
      · have hfresh : ∀ j < n, src + BitVec.ofNat 16 n ≠ dst + BitVec.ofNat 16 j :=
          fun j hj heq => hcopied ⟨j, hj, heq⟩
        rw [copyBytes_memRead_other hw hfresh]
        exact (h n (by omega)).resolve_right hcopied
    rcases copyBytes_succ_cases n src dst s with ⟨x, v, -, -, e⟩ | ⟨x, hx, hnone, -⟩ | ⟨f, hf, -⟩
    · exact ⟨_, e⟩
    · cases hw.symm.trans hx
      exact absurd hnone hready
    · cases hw.symm.trans hf

/-- A source byte that is not ready stops the copy by name. -/
theorem copyBytes_stops (hn : n ≤ 65536) {i : Nat} (hi : i < n) (hnone : s.memRead (src + BitVec.ofNat 16 i) = none)
    (hfresh : ∀ j < i, src + BitVec.ofNat 16 i ≠ dst + BitVec.ofNat 16 j) :
    copyBytes n src dst s = .error .readUnwritten := by
  cases hcopy : copyBytes n src dst s with
  | error f => rw [copyBytes_error hcopy]
  | ok u =>
    obtain ⟨w, v, hw, hv, -⟩ := copyBytes_memRead_dst hn hcopy hi
    rw [copyBytes_memRead_other hw hfresh, hnone] at hv
    cases hv

/-- Settles O33: where the copy completes or stops, and what each byte reads afterwards. -/
theorem copyBytesMoves : Obligations.CopyBytesMoves := by
  unfold Obligations.CopyBytesMoves
  intro n src dst s hn
  have hn' : n ≤ 65536 := by omega
  refine ⟨copyBytes_completes hn', fun ⟨i, hi, hnone, hfresh⟩ => copyBytes_stops hn' hi hnone hfresh,
    fun u hcopy => ⟨fun i hi => copyBytes_memRead_dst hn' hcopy hi, fun i hi => copyBytes_memRead_fresh hn' hcopy hi,
      fun k hk hkn hdst i hi => copyBytes_memRead_repeats hk (by omega) hdst hn hcopy hi,
      fun b => copyBytes_memRead_other hcopy, (copyBytes_frame hcopy).2⟩⟩

/-! ### One dispatch of the call -/

/-- CNT is used up exactly when no byte is left beyond the at most four of this dispatch. -/
theorem sub_min_four_eq_zero_iff (cnt : Byte) :
    cnt - BitVec.ofNat 8 (min cnt.toNat 4) = 0 ↔ ¬ min cnt.toNat 4 < cnt.toNat := by
  have := cnt.isLt
  rw [← BitVec.toNat_inj, BitVec.toNat_sub, BitVec.toNat_ofNat, show BitVec.toNat (0 : Byte) = 0 from rfl]
  omega

/-- The routine where the copy answers `u`: the arguments written back after the copy. -/
theorem copyRoutine_of_ok (hsrc : src = mkWord s.scratch.b1 s.scratch.b0) (hdst : dst = mkWord s.scratch.b3 s.scratch.b2)
    (hn : n = min s.scratch.b4.toNat 4) (h : copyBytes n src dst s = .ok u) :
    copyRoutine s = .ok { u with
      pc := if n < s.scratch.b4.toNat then u.pc - 2 else u.pc
      scratch := { u.scratch with
        b0 := loByte (src + BitVec.ofNat 16 n), b1 := hiByte (src + BitVec.ofNat 16 n)
        b2 := loByte (dst + BitVec.ofNat 16 n), b3 := hiByte (dst + BitVec.ofNat 16 n)
        b4 := s.scratch.b4 - BitVec.ofNat 8 n } } := by
  have hcopy : copyBytes (min (s.scratch.get 4).toNat 4) (scratchWord s.scratch 0) (scratchWord s.scratch 1) s =
      .ok u := by
    rw [hsrc, hdst, hn] at h
    exact h
  have hleft := sub_min_four_eq_zero_iff s.scratch.b4
  rw [← hn] at hleft
  have hget : s.scratch.get 4 = s.scratch.b4 := rfl
  unfold copyRoutine
  simp only [hcopy, do_ok_eq]
  rw [hget, ← hn, show scratchWord s.scratch 0 = src from hsrc.symm, show scratchWord s.scratch 1 = dst from hdst.symm]
  by_cases hagain : n < s.scratch.b4.toNat
  · rw [if_neg (fun hzero => hleft.mp hzero hagain)]
    simp only [hagain, if_true]
    rfl
  · rw [if_pos (hleft.mpr hagain)]
    simp only [hagain, if_false]
    rfl

/-- Settles O32: the copy does not see PC, so the routine's copy from PCn is the copy of the statement. -/
theorem sysCopyStep : Obligations.SysCopyStep := by
  unfold Obligations.SysCopyStep
  intro d s u slot n hd ht hslot hextra hroutine hreport hmax hn src dst hsrc hdst hcopy
  have hcopy' : copyBytes n src dst (s.setPc (s.pc + 2)) = .ok (u.setPc (s.pc + 2)) := by
    rw [copyBytes_transparent (transparent_setPc (s.pc + 2)), hcopy]
    rfl
  have hback : s.pc + 2 - 2 = s.pc := by bv_omega
  have hran := copyRoutine_of_ok (s := s.setPc (s.pc + 2)) hsrc hdst hn hcopy'
  simp only [State.setPc_pc, hback] at hran
  have hreturns : runRoutine slot (s.setPc (s.pc + 2)) = (copyRoutine (s.setPc (s.pc + 2))).map (fun v => (v, -24)) := by
    rw [runRoutine, hroutine, hreport]
  rw [hran] at hreturns
  exact exec_sys_completes hd ht hslot hextra hreturns (by decide) hmax

end Sys2Proof.Machine
end

section
/-! The secondary opcode table against the encoder and the decoder (30_encoding.md R99 to R102; 44_secondary.md R241,
R254): the operand bytes of each mode, the instruction an opcode stands for whatever bytes follow, and what is missing
where the bytes end too early. -/

namespace Sys2Proof

/-! ### The escape and the implemented opcodes (30_encoding.md R100, R102) -/

/-- Two operand bytes are enough for every row. -/
theorem OpRow.readOperand_two (row : OpRow) (b c : Byte) (rest : List Byte) :
    ∃ i left, row.readOperand (b :: c :: rest) = .ok (i, left) := by
  cases row with
  | op0 i => exact ⟨i, b :: c :: rest, rfl⟩
  | op1 f => exact ⟨f b, c :: rest, rfl⟩
  | op2 f => exact ⟨f (mkWord c b), rest, rfl⟩

theorem decodeSecondary_two (op b c : Byte) (rest : List Byte) :
    ∃ i left, decodeSecondary (op :: b :: c :: rest) = .ok (i, left) := by
  cases hrow : secondaryRow op with
  | none => exact ⟨.esc op, b :: c :: rest, by rw [decodeSecondary, hrow]⟩
  | some row => exact (row.readOperand_two b c rest).imp fun i ⟨left, h⟩ => ⟨left, (decodeSecondary_of_row hrow _).trans h⟩

/-- An implemented opcode is never read as the escape: the escape of an opcode encodes as that opcode, and is
well-formed for the others only. -/
theorem ne_esc_of_decodeSecondary {op : Byte} {bytes left : List Byte} {i : Instr} (hop : op ∈ implementedOpcodes)
    (h : decodeSecondary (op :: bytes) = .ok (i, left)) (q : Byte) : i ≠ .esc q := by
  rintro rfl
  obtain ⟨hbytes, hwf, -⟩ := decodeSecondary_ok h
  have hq : op = q := (List.cons.inj hbytes).1
  rw [← hq] at hwf
  simp [Instr.wellFormed, hop] at hwf

/-- Every byte, once. -/
def allBytes : List Byte := (List.range 256).map (BitVec.ofNat 8)

theorem mem_allBytes (op : Byte) : op ∈ allBytes :=
  List.mem_map.mpr ⟨op.toNat, List.mem_range.mpr op.isLt, BitVec.ofNat_toNat ..⟩

theorem allBytes_nodup : allBytes.Nodup := by
  refine List.Nodup.map_on (fun a ha b hb h => ?_) List.nodup_range
  have hmod := congrArg BitVec.toNat h
  rw [List.mem_range] at ha hb
  simp only [BitVec.toNat_ofNat] at hmod
  omega

/-- As many bytes are in a list without repetitions as it has entries, so the others are those missing to 256. -/
theorem length_filter_unlisted {l : List Byte} (h : l.Nodup) :
    (allBytes.filter fun op => !l.contains op).length = 256 - l.length := by
  have hlisted : (allBytes.filter fun op => l.contains op).length = l.length := by
    refine List.Perm.length_eq ((List.perm_ext_iff_of_nodup (allBytes_nodup.filter _) h).mpr fun op => ?_)
    simp [mem_allBytes]
  have hall : allBytes.length = 256 := by simp [allBytes]
  have hsplit := List.length_eq_length_filter_add (l := allBytes) fun op => l.contains op
  omega

theorem implementedOpcodes_nodup : implementedOpcodes.Nodup := by decide +kernel

/-- Settles O4: outside the opcode list the decoder has no row, inside it a row that two bytes complete. -/
theorem unimplementedOpcodesDecode : Obligations.UnimplementedOpcodesDecode := by
  unfold Obligations.UnimplementedOpcodesDecode
  refine ⟨rfl, implementedOpcodes_nodup, length_filter_unlisted implementedOpcodes_nodup,
    fun op rest hop => decodeSecondary_escape hop rest, fun op hop b c rest => ?row⟩
  obtain ⟨i, left, h⟩ := decodeSecondary_two op b c rest
  exact ⟨i, left, h, ne_esc_of_decodeSecondary hop h⟩

/-- Settles O3: the decoder run on each word of the tables. -/
theorem sampleWordsDecode : Obligations.SampleWordsDecode := by
  unfold Obligations.SampleWordsDecode
  exact ⟨rfl, rfl, rfl, rfl, rfl, rfl, rfl, rfl, rfl, rfl, rfl, rfl, rfl, rfl, rfl, rfl⟩

end Sys2Proof

namespace Sys2Proof.Machine

variable {i : Instr} {op : Byte} {o : Operation} {m : Mode}

/-! ### The operand bytes of a mode -/

/-- The bytes that follow the opcode in a mode (30_encoding.md R99, R101). -/
def Mode.Operand : Mode → List Byte → Prop
  | .implied, bytes => bytes = []
  | .imm, bytes => ∃ b, bytes = [b]
  | .rel, bytes => ∃ b, bytes = [b]
  | .zp b, bytes => bytes = [b]
  | .zpX b, bytes => bytes = [b]
  | .abs a, bytes => bytes = wordBytes a
  | .absX a, bytes => bytes = wordBytes a
  | .absY a, bytes => bytes = wordBytes a
  | .indX b, bytes => bytes = [b]
  | .indY b, bytes => bytes = [b]

theorem Mode.Operand.length_eq {bytes : List Byte} (h : m.Operand bytes) : bytes.length = m.operandBytes.toNat := by
  cases m with
  | imm => obtain ⟨b, rfl⟩ := h; rfl
  | rel => obtain ⟨b, rfl⟩ := h; rfl
  | _ => cases h; rfl

/-- The encoder follows the table. -/
theorem encode_of_row (hrow : secondaryTable i = some (op, o, m)) :
    ∃ operand, encode i = op :: operand ∧ m.Operand operand := by
  cases i <;> simp only [secondaryTable, reduceCtorEq, Option.some.injEq, Prod.mk.injEq] at hrow <;>
    obtain ⟨rfl, rfl, rfl⟩ := hrow <;> first | exact ⟨_, rfl, rfl⟩ | exact ⟨_, rfl, _, rfl⟩

theorem encode_length_of_row (hrow : secondaryTable i = some (op, o, m)) :
    (encode i).length = 1 + m.operandBytes.toNat := by
  obtain ⟨operand, hencode, hoperand⟩ := encode_of_row hrow
  rw [hencode, List.length_cons, hoperand.length_eq, Nat.add_comm]

/-- Settles O5: `encode_of_row`, mode by mode. -/
theorem secondaryEncodings : Obligations.SecondaryEncodings := by
  unfold Obligations.SecondaryEncodings
  refine ⟨fun i => (isa_primary_iff i).symm, fun i op o m hrow => ?row⟩
  obtain ⟨operand, hencode, hoperand⟩ := encode_of_row hrow
  refine ⟨by rw [hencode]; rfl, encode_length_of_row hrow, ?_⟩
  cases m with
  | imm => obtain ⟨b, rfl⟩ := hoperand; exact ⟨b, hencode⟩
  | rel => obtain ⟨b, rfl⟩ := hoperand; exact ⟨b, hencode⟩
  | _ => cases hoperand; exact hencode

/-! ### The instruction an opcode stands for -/

/-- An opcode followed by two bytes decodes to an instruction of its own operation, whatever the bytes are. -/
theorem decodeSecondary_sameOperation (hwf : i.wellFormed = true) (hrow : secondaryTable i = some (op, o, m))
    (b c : Byte) : ∃ j left n, decodeSecondary [op, b, c] = .ok (j, left) ∧ secondaryTable j = some (op, o, n) := by
  by_cases hesc : i = .esc op
  · subst hesc
    cases hrow
    exact ⟨.esc op, [b, c], .implied, decodeSecondary_escape (by simpa [Instr.wellFormed] using hwf) _, rfl⟩
  · cases i <;> simp only [secondaryTable, reduceCtorEq, Option.some.injEq, Prod.mk.injEq] at hrow <;>
      obtain ⟨rfl, rfl, rfl⟩ := hrow <;> first | exact absurd rfl hesc | exact ⟨_, _, _, rfl, rfl⟩

/-- An opcode of immediate or relative mode: Fetch knows that its operand is read at Execute, and the instruction is
the same whatever the operand byte is. -/
structure OperandAtExecute (op : Byte) (o : Operation) (m : Mode) : Prop where
  listed : operandAtExecute.contains op = true
  notExpensive : opcodeExpensive op = false
  row : ∃ f, secondaryRow op = some (.op1 f) ∧ ∀ b, secondaryTable (f b) = some (op, o, m)

theorem operandAtExecute_of_row (hrow : secondaryTable i = some (op, o, m)) (hm : m = .imm ∨ m = .rel) :
    OperandAtExecute op o m := by
  cases i <;> simp only [secondaryTable, reduceCtorEq, Option.some.injEq, Prod.mk.injEq] at hrow <;>
    obtain ⟨rfl, rfl, rfl⟩ := hrow <;>
    first
    | (rcases hm with h | h <;> cases h; done)
    | exact ⟨rfl, rfl, _, rfl, fun _ => rfl⟩

/-- An opcode of another mode with an operand is not one of those. -/
theorem not_operandAtExecute_of_row (hrow : secondaryTable i = some (op, o, m)) (himplied : m ≠ .implied)
    (himm : m ≠ .imm) (hrel : m ≠ .rel) : operandAtExecute.contains op = false := by
  cases i <;> simp only [secondaryTable, reduceCtorEq, Option.some.injEq, Prod.mk.injEq] at hrow <;>
    obtain ⟨rfl, rfl, rfl⟩ := hrow <;>
    first
    | exact absurd rfl himplied
    | exact absurd rfl himm
    | exact absurd rfl hrel
    | rfl

/-- An opcode whose mode is not of expensive class is not taken for one that is. -/
theorem not_opcodeExpensive_of_row (hrow : secondaryTable i = some (op, o, m)) (himplied : m ≠ .implied)
    (hm : m.cls ≠ .expensive) : opcodeExpensive op = false := by
  cases i <;> simp only [secondaryTable, reduceCtorEq, Option.some.injEq, Prod.mk.injEq] at hrow <;>
    obtain ⟨rfl, rfl, rfl⟩ := hrow <;>
    first
    | exact absurd rfl himplied
    | exact absurd rfl hm
    | rfl

/-! ### Bytes that end too early -/

/-- A strict front part of an encoding decodes to nothing: the decoder asks for more bytes. -/
theorem decode_take_encode (i : Instr) {k : Nat} (hpos : 0 < k) (hk : k < (encode i).length) :
    decode i.isa ((encode i).take k) = .error .truncated := by
  have hlength := (encode_length_bounds i).2.1
  have hcases : k = 1 ∨ k = 2 ∨ k = 3 := by omega
  rcases hcases with rfl | rfl | rfl <;> cases i <;> first | rfl | exact absurd hk (by simp [encode, wordBytes])

/-! ### The step (40_scheduler_dispatch.md R126) -/

section Step

variable {s : State} {rest : List Byte}

theorem step_of_fetch (hrun : s.run = .running) (h : fetch s = .instr i) : step s = finishStep s (exec i s) := by
  rw [step_running hrun, dispatchStep, h]

theorem step_of_fetch_stop {f : Fault} (hrun : s.run = .running) (h : fetch s = .stop f) : step s = .fault f := by
  rw [step_running hrun, dispatchStep, h]

theorem fetchPrimary_of_decode (h : decodePrimary (s.readRun 4 s.pc) = .ok (i, rest)) : fetchPrimary s = .instr i := by
  rw [fetchPrimary, h]

theorem fetchSecondary_of_decode (hop : s.memRead s.lr = some op)
    (h : decodeSecondary (op :: (s.setIr op).readRun 2 (s.lr + 1)) = .ok (i, rest)) : fetchSecondary s = .instr i := by
  rw [fetchSecondary, hop]
  simp only [h]

theorem latchedInstr_of_decode (h : decodeSecondary [s.ir, s.adl, s.adh] = .ok (i, rest)) :
    latchedInstr s = .instr i := by
  rw [latchedInstr, secondaryOf, h]

/-- Settles O7: the fetch that SEL selects finds what the bytes decode to. -/
theorem stepRunsDecodedInstruction : Obligations.StepRunsDecodedInstruction := by
  unfold Obligations.StepRunsDecodedInstruction
  refine fun s i rest hrun => ⟨fun hsel h => ?primary, fun hsel op hop h => ?secondary, fun hsel h => ?latched,
    step_reserved hrun⟩
  case primary => exact step_of_fetch hrun ((fetch_primary hsel).trans (fetchPrimary_of_decode h))
  case secondary => exact step_of_fetch hrun ((fetch_secondary hsel).trans (fetchSecondary_of_decode hop h))
  case latched => exact step_of_fetch hrun ((fetch_latched hsel).trans (latchedInstr_of_decode h))

/-! ### The fast path (44_secondary.md R254, R292) -/

/-- At Execute the operation says it all. -/
theorem exec_eq_of_sameOperation {j : Instr} {n : Mode} (hsel : s.sel = 0x02#8)
    (hi : secondaryTable i = some (op, o, m)) (hj : secondaryTable j = some (op, o, n)) : exec i s = exec j s := by
  rw [exec_at_execute hi hsel, exec_at_execute hj hsel]

/-- Settles O52: IR with any two bytes decodes to an instruction of IR's operation. -/
theorem fastPathEntry : Obligations.FastPathEntry := by
  unfold Obligations.FastPathEntry
  refine ⟨fun i j op o m n s hsel hi hj => exec_eq_of_sameOperation hsel hi hj,
    fun i op o m s hwf hrun hsel hrow hir => ?latched⟩
  obtain ⟨j, left, n, hdecode, hj⟩ := decodeSecondary_sameOperation hwf hrow s.adl s.adh
  rw [← hir] at hdecode
  rw [step_of_fetch hrun ((fetch_latched hsel).trans (latchedInstr_of_decode hdecode)),
    exec_eq_of_sameOperation hsel hrow hj]

/-! ### The bytes an instruction needs (40_scheduler_dispatch.md R131; 44_secondary.md R241) -/

/-- A run of reads over the front part of a list ends where the next byte holds no value. -/
theorem readRun_ends {bytes : List Byte} {n : Nat} {a : Word} (h : BytesAt s a bytes) (hn : bytes.length ≤ n)
    (hnone : s.memRead (a + BitVec.ofNat 16 bytes.length) = none) : s.readRun n a = bytes := by
  rw [readRun_bytes bytes n a h hn, readRun_nil hnone, List.append_nil]

theorem fetchPrimary_of_bytes (hwf : i.wellFormed = true) (hisa : i.isa = .primary) (h : BytesAt s s.pc (encode i)) :
    fetchPrimary s = .instr i := by
  have hdecode := decode_encode i (s.readRun (4 - (encode i).length) (s.pc + BitVec.ofNat 16 (encode i).length)) hwf
  rw [← readRun_bytes (encode i) 4 s.pc h (encode_length_bounds i).2.1, hisa] at hdecode
  exact fetchPrimary_of_decode hdecode

theorem fetchSecondary_of_bytes {operand : List Byte} (hwf : i.wellFormed = true) (hisa : i.isa = .secondary)
    (hencode : encode i = op :: operand) (hop : s.memRead s.lr = some op)
    (h : BytesAt (s.setIr op) (s.lr + 1) operand) : fetchSecondary s = .instr i := by
  have hlength : operand.length ≤ 2 := by
    have := (encode_length_bounds i).2.2 hisa
    rw [hencode, List.length_cons] at this
    omega
  have hdecode := decode_encode i ((s.setIr op).readRun (2 - operand.length)
    (s.lr + 1 + BitVec.ofNat 16 operand.length)) hwf
  rw [hencode, List.cons_append, ← readRun_bytes operand 2 _ h hlength, hisa] at hdecode
  exact fetchSecondary_of_decode hop hdecode

/-- A primary instruction of which the first `k` bytes hold a value and the next does not. -/
theorem decodePrimary_of_missing {k : Nat} (hisa : i.isa = .primary) (hpos : 0 < k) (hk : k < (encode i).length)
    (h : BytesAt s s.pc ((encode i).take k)) (hnone : s.memRead (s.pc + BitVec.ofNat 16 k) = none) :
    decodePrimary (s.readRun 4 s.pc) = .error .truncated := by
  have hlength : ((encode i).take k).length = k := List.length_take_of_le (Nat.le_of_lt hk)
  have hmax := (encode_length_bounds i).2.1
  rw [readRun_ends h (by omega) (by rw [hlength]; exact hnone)]
  have hdecode := decode_take_encode i hpos hk
  rwa [hisa] at hdecode

/-- The immediate and relative modes: whatever follows the opcode, and where nothing does. -/
theorem fetchSecondary_operandAtExecute (h : OperandAtExecute op o m) (hop : s.memRead s.lr = some op) :
    ∃ j, fetchSecondary s = .instr j ∧ secondaryTable j = some (op, o, m) := by
  obtain ⟨hlisted, hcheap, f, hrow, hf⟩ := h
  rcases readRun_two (s.setIr op) (s.lr + 1) with hnil | ⟨b, hone⟩ | ⟨b, c, htwo⟩
  · refine ⟨f 0x00#8, ?_, hf _⟩
    have hshort : decodeSecondary [op] = .error .truncated := decodeSecondary_of_row hrow []
    have hfilled : secondaryOf [op, 0x00#8] = .instr (f 0x00#8) := by
      rw [secondaryOf, decodeSecondary_of_row hrow]
      rfl
    rw [fetchSecondary, hop]
    simp only [hnil, hshort, hcheap, hlisted, Bool.false_and, Bool.false_eq_true, if_false, if_true, hfilled]
  · exact ⟨f b, fetchSecondary_of_decode hop (rest := []) (hone ▸ decodeSecondary_of_row hrow [b]), hf b⟩
  · exact ⟨f b, fetchSecondary_of_decode hop (rest := [c]) (htwo ▸ decodeSecondary_of_row hrow [b, c]), hf b⟩

/-- The other modes with an operand, where an operand byte holds no value: the fetch stops by name. -/
theorem fetchSecondary_of_missing {k : Nat} (hrow : secondaryTable i = some (op, o, m)) (himm : m ≠ .imm)
    (hrel : m ≠ .rel) (hadmitted : m.cls = .expensive → s.cfg.expExtraS ≤ s.t) (hpos : 0 < k)
    (hk : k < (encode i).length) (hop : s.memRead s.lr = some op)
    (h : BytesAt (s.setIr op) (s.lr + 1) (((encode i).drop 1).take (k - 1)))
    (hnone : (s.setIr op).memRead (s.lr + BitVec.ofNat 16 k) = none) : fetchSecondary s = .stop .readUnwritten := by
  obtain ⟨operand, hencode, -⟩ := encode_of_row hrow
  have hisa : i.isa = .secondary := by
    cases hi : i.isa with
    | primary => simp [(isa_primary_iff i).mp hi] at hrow
    | secondary => rfl
  have himplied : m ≠ .implied := by
    rintro rfl
    rw [encode_length_of_row hrow] at hk
    exact absurd hk (by simp [Mode.operandBytes]; omega)
  have hbytes : op :: (s.setIr op).readRun 2 (s.lr + 1) = (encode i).take k := by
    have hmax := (encode_length_bounds i).2.2 hisa
    have hlength : (((encode i).drop 1).take (k - 1)).length = k - 1 := by
      rw [List.length_take, List.length_drop]
      omega
    have hnext : s.lr + 1 + BitVec.ofNat 16 (k - 1) = s.lr + BitVec.ofNat 16 k := by
      rw [show (1 : Word) = BitVec.ofNat 16 1 from rfl, add_ofNat_add, Nat.add_sub_of_le hpos]
    rw [readRun_ends h (by omega) (by rw [hlength, hnext]; exact hnone), hencode]
    obtain ⟨k, rfl⟩ := Nat.exists_eq_succ_of_ne_zero (Nat.ne_of_gt hpos)
    rfl
  have hshort : decodeSecondary (op :: (s.setIr op).readRun 2 (s.lr + 1)) = .error .truncated := by
    rw [hbytes]
    have hdecode := decode_take_encode i hpos hk
    rwa [hisa] at hdecode
  have hgoesOn : (opcodeExpensive op && expensiveNotAdmitted s) = false := by
    by_cases hm : m.cls = .expensive
    · have hticks := hadmitted hm
      rw [Bool.eq_false_iff.mpr (mt expensiveNotAdmitted_iff.mp (by omega)), Bool.and_false]
    · rw [not_opcodeExpensive_of_row hrow himplied hm, Bool.false_and]
  rw [fetchSecondary, hop]
  simp only [hshort, hgoesOn, not_operandAtExecute_of_row hrow himplied himm hrel, Bool.false_eq_true, if_false]
  rfl

theorem fetchSecondary_none (h : s.memRead s.lr = none) : fetchSecondary s = .stop .readUnwritten := by
  rw [fetchSecondary, h]

/-- Settles O8: the fetch of an instruction whose bytes stand in memory, and each way it can miss one. -/
theorem fetchReadsInstruction : Obligations.FetchReadsInstruction := by
  unfold Obligations.FetchReadsInstruction
  refine ⟨fun s i hrun hwf => ⟨fun hisa hsel h => ?primary, fun hisa hsel op operand hencode hop h => ?secondary⟩,
    fun s hrun => ⟨fun hsel hnone => ?noOpcode, fun hsel hnone => ?noOpcodeAtLr,
      fun hsel i k hisa _ hpos hk h hnone => ?primaryMissing, fun hsel i op o m hrow hm hop => ?operandAtExecute,
      fun hsel i op o m k hrow himm hrel hadmitted hpos hk hop h hnone => ?secondaryMissing⟩⟩
  case primary => exact step_of_fetch hrun ((fetch_primary hsel).trans (fetchPrimary_of_bytes hwf hisa h))
  case secondary =>
    exact step_of_fetch hrun ((fetch_secondary hsel).trans (fetchSecondary_of_bytes hwf hisa hencode hop h))
  case noOpcode =>
    refine step_of_decodePrimary_error hrun hsel (e := .truncated) ?_
    rw [readRun_nil hnone]
    rfl
  case noOpcodeAtLr => exact step_of_fetch_stop hrun ((fetch_secondary hsel).trans (fetchSecondary_none hnone))
  case primaryMissing =>
    exact step_of_decodePrimary_error hrun hsel (decodePrimary_of_missing hisa hpos hk h hnone)
  case operandAtExecute =>
    obtain ⟨j, hfetch, hj⟩ := fetchSecondary_operandAtExecute (operandAtExecute_of_row hrow hm) hop
    rw [step_of_fetch hrun ((fetch_secondary hsel).trans hfetch), exec_secondary hrow, exec_secondary hj]
  case secondaryMissing =>
    exact step_of_fetch_stop hrun ((fetch_secondary hsel).trans
      (fetchSecondary_of_missing hrow himm hrel hadmitted hpos hk hop h hnone))

end Step

end Sys2Proof.Machine
end

section
/-! The slice loop, RESET and the state after it, and the interrupt round trip (40_scheduler_dispatch.md R130 to R137;
70_reset_and_hazards.md R360; 60_exceptions.md R340). -/

namespace Sys2Proof.Machine

/-! ### The end of a step -/

section Loop

variable {s t : State} {i j : Interp}

theorem finishStep_running (hs : interp s.sel = some i) (ht : interp t.sel = some j) (hrun : t.run = .running) :
    finishStep s (.next t) = if j ≠ i then .next (t.exitSlice .switched) else
      if t.t < 0 then .next (t.exitSlice .exhausted) else .next t := by
  rw [finishStep, if_neg (by simp [hrun]), closeStep, ht]
  simp only [hs, ne_eq, Option.some.injEq]

theorem finishStep_idle (hrun : t.run = .idle) : finishStep s (.next t) = .next t := if_pos hrun

/-- A step that leaves a legal selector goes on or exits, its state kept but for RUN and the answer. -/
theorem finishStep_goesOn_or_exits (hs : interp s.sel = some i) (ht : interp t.sel = some j)
    (hrun : t.run = .running) :
    finishStep s (.next t) = .next t ∨ ∃ r, finishStep s (.next t) = .next (t.exitSlice r) := by
  rw [finishStep_running hs ht hrun]
  split_ifs
  · exact .inr ⟨_, rfl⟩
  · exact .inr ⟨_, rfl⟩
  · exact .inl rfl

theorem interp_eq_primary_iff {sel : Byte} : interp sel = some .primary ↔ sel = 0x00#8 := by
  unfold interp selP
  split_ifs with h0 h1
  · simp [h0]
  · simp [h0]
  · simp [h0]

theorem interp_eq_secondary_iff {sel : Byte} : interp sel = some .secondary ↔ sel = 0x01#8 ∨ sel = 0x02#8 := by
  refine ⟨fun h => ?_, interp_secondary⟩
  unfold interp at h
  split_ifs at h with h0 h1
  · cases h
  · exact h1

/-- The interpreter that a selector names, from the one found. -/
theorem interp_iff_sel (hs : interp s.sel = some i) :
    (i = .primary ↔ s.sel = 0x00#8) ∧ (i = .secondary ↔ s.sel = 0x01#8 ∨ s.sel = 0x02#8) := by
  rw [← interp_eq_primary_iff, ← interp_eq_secondary_iff, hs, Option.some.injEq, Option.some.injEq]
  exact ⟨Iff.rfl, Iff.rfl⟩

end Loop

/-- Settles O9: the equations of `finishStep`, and of a step with RUN = IDLE. -/
theorem sliceLoop : Obligations.SliceLoop := by
  unfold Obligations.SliceLoop
  refine ⟨fun s t i j hi hj => ⟨fun hrun => finishStep_running hi hj hrun, finishStep_idle, fun f => rfl,
    interp_iff_sel hi⟩, fun s hidle => ⟨fun hnone => ?nothing, fun c rest hpending => ?command⟩⟩
  case nothing => rw [step_idle hidle, hostStep, hnone]
  case command => rw [step_idle hidle, hostStep, hpending]

/-! ### RESET and the defaults -/

/-- Settles O14: the RESET command is its equation; a memory that lists nothing reads no value outside the windows. -/
theorem reset : Obligations.Reset := by
  unfold Obligations.Reset
  exact ⟨fun s => rfl, rfl, rfl, rfl, rfl, rfl, rfl, fun addr hout => State.memRead_outside hout⟩

theorem ticksWf_default : Config.default.TicksWf where
  width := by decide
  reserveP := by decide
  reserveS := by decide
  primary := by decide
  extended := by decide
  rtiExtra := by decide
  rti := by decide
  decodeCheap := by decide
  decodeMedium := by decide
  decodeExpensive := by decide
  expExtra := by decide
  execute := by decide

theorem addressesWf_default : Config.default.AddressesWf where
  sysfnWindow := by decide
  scratchWindow := by decide
  disjoint := by decide
  vectorOutside k hk a ha := by
    obtain rfl : a = 0x01F6 + k := by
      rw [ha]
      exact Nat.mod_eq_of_lt (by change 0x01F6 + k < 65536; omega)
    change (0x01F6 + k < 0x0022 ∨ 0x0022 + 1 < 0x01F6 + k) ∧ (0x01F6 + k < 0x0024 ∨ 0x0024 + 7 < 0x01F6 + k)
    omega
  stride := by decide
  slotRange := by decide

/-- A slot of the four reference routines is no native one. -/
theorem referenceSlots_default : ReferenceSlots Config.default := by
  have hslots : ∀ slot ∈ Config.default.slots, slot.routine = .placeholder ∨ slot.routine = .runSecondary ∨
      slot.routine = .multiply16 ∨ slot.routine = .copyBytes := by decide
  intro slot hmem id hnative
  rcases hslots slot hmem with h | h | h | h <;> cases hnative.symm.trans h

theorem ticksGood_reset : TicksGood State.reset where
  low := by decide
  high := by decide
  room hrun := by cases hrun

/-- Settles O56: the state after reset lists no byte, and the defaults are evaluated constraint by constraint. -/
theorem resetIsGood : Obligations.ResetIsGood := by
  unfold Obligations.ResetIsGood
  exact ⟨⟨memoryGood_of_nil rfl, ⟨.inl rfl, .inl rfl⟩, ticksGood_reset, ticksWf_default⟩, ticksWf_default,
    addressesWf_default, referenceSlots_default, Config.tmax_default, rfl, by decide, by decide, by decide, by decide,
    by decide⟩

/-! ### The interrupt round trip (60_exceptions.md R340) -/

section RoundTrip

variable {s t u : State}

/-- An IRQ_CHECK after which an interrupt is in service, with none before, has taken it. -/
theorem irqCheck_entered (hsvc : s.insvc = false) (h : irqCheck s = .next t) (hin : t.insvc = true) :
    ∃ v, t = (s.enterInterrupt v).setAnswer (some (.irqChecked true)) := by
  obtain ⟨v, -, ⟨-, -, ht⟩ | ⟨-, rfl⟩⟩ := irqCheck_next h
  · exact ⟨v, ht⟩
  · exact absurd (hsvc.symm.trans hin) (by decide)

/-- The opcode of RTI at PC is fetched as RTI, whatever follows it. -/
theorem fetchPrimary_rti (h : s.memRead s.pc = some 0x16#8) : fetchPrimary s = .instr .rti :=
  fetchPrimary_of_decode (rest := s.readRun 3 (s.pc + 1)) (by rw [readRun_cons h]; rfl)

theorem interp_of_selectorGood (h : SelectorGood s) : ∃ j, interp s.sel = some j := by
  rcases h.sel with hsel | hsel | hsel
  · exact ⟨.primary, by rw [hsel]; rfl⟩
  · exact ⟨.secondary, interp_secondary (.inl hsel)⟩
  · exact ⟨.secondary, interp_secondary (.inr hsel)⟩

/-- The step of a handler whose first instruction is an admitted RTI: the return, up to the end of the slice. -/
theorem step_rti {j : Interp} (hrun : u.run = .running) (hsel : u.sel = 0x00#8) (hsvc : u.insvc = true)
    (hpc : u.memRead u.pc = some 0x16#8) (ht : (u.cfg.rtiExtra : Int) ≤ u.t) (hisel : interp u.isel = some j) :
    ∃ v, step u = .next v ∧ (v = u.returnFromInterrupt.charge u.cfg.costRti ∨
      ∃ r, v = (u.returnFromInterrupt.charge u.cfg.costRti).exitSlice r) := by
  rw [step_of_fetch hrun ((fetch_primary hsel).trans (fetchPrimary_rti hpc)), exec_rti_inHandler (by omega) hsvc]
  rcases finishStep_goesOn_or_exits (t := u.returnFromInterrupt.charge u.cfg.costRti)
    (interp_eq_primary_iff.mpr hsel) hisel hrun with h | ⟨r, h⟩
  · exact ⟨_, h, .inl rfl⟩
  · exact ⟨_, h, .inr ⟨r, rfl⟩⟩

/-- Every register and byte that neither the slice nor the save area holds is as in `s`. -/
structure RoundTrip (s v : State) : Prop where
  cfg : v.cfg = s.cfg
  pc : v.pc = s.pc
  ac : v.ac = s.ac
  lr : v.lr = s.lr
  sp : v.sp = s.sp
  tmp : v.tmp = s.tmp
  scratch : v.scratch = s.scratch
  sysfn : v.sysfn = s.sysfn
  sel : v.sel = s.sel
  insvc : v.insvc = s.insvc
  mem : v.mem = s.mem
  pending : v.pending = s.pending

theorem RoundTrip.state_eq {v : State} (h : RoundTrip s v) (hidle : s.run = .idle) :
    { v with t := s.t, ipc := s.ipc, iac := s.iac, isel := s.isel, run := .idle, sliceN := s.sliceN,
             answer := s.answer } = s := by
  rw [h.cfg, h.pc, h.ac, h.lr, h.sp, h.tmp, h.scratch, h.sysfn, h.sel, h.insvc, h.mem, h.pending, ← hidle]

/-- The return from an interrupt undoes its entry and the arming of a slice, with no interrupt in service after it. -/
theorem roundTrip_return (hsvc : s.insvc = false) (vector : Word) (a : Option Answer) (ticks : Int) (n c : Nat) :
    RoundTrip s (({ (s.enterInterrupt vector).setAnswer a with
      t := ticks, run := .running, sliceN := n } : State).returnFromInterrupt.charge c) :=
  ⟨rfl, rfl, rfl, rfl, rfl, rfl, rfl, rfl, rfl, hsvc.symm, rfl, rfl⟩

theorem RoundTrip.exitSlice {v : State} (h : RoundTrip s v) (r : ExitReason) : RoundTrip s (v.exitSlice r) :=
  ⟨h.cfg, h.pc, h.ac, h.lr, h.sp, h.tmp, h.scratch, h.sysfn, h.sel, h.insvc, h.mem, h.pending⟩

end RoundTrip

/-- Settles O37: the entry saves PC, AC and SEL, START_SLICE writes T, RUN and N, and the return puts the three back. -/
theorem interruptRoundTrip : Obligations.InterruptRoundTrip := by
  unfold Obligations.InterruptRoundTrip
  intro s t u b hidle hsvc hgood hcheck hin hstart hpc hticks
  obtain ⟨vector, rfl⟩ := irqCheck_entered hsvc hcheck hin
  have harmed : startSlice b ((s.enterInterrupt vector).setAnswer (some (.irqChecked true))) = .next u := hstart
  obtain ⟨i, -, -, rfl⟩ := startSlice_next harmed
  obtain ⟨j, hj⟩ := interp_of_selectorGood hgood
  obtain ⟨v, hstep, hv⟩ := step_rti (j := j) rfl rfl rfl hpc hticks hj
  refine ⟨v, hstep, RoundTrip.state_eq ?_ hidle⟩
  rcases hv with rfl | ⟨r, rfl⟩
  · exact roundTrip_return hsvc ..
  · exact (roundTrip_return hsvc ..).exitSlice r

end Sys2Proof.Machine
end

section
/-! The remaining instructions and flags (00_scope.md R10; 41_primary.md R166, R167, R170; 44_secondary.md R255, R262 to
R278): the carry and the overflow, LUP, CALL, RET, the register operations, and the round trip of the flags. -/

namespace Sys2Proof.Machine

/-! ### Carry, overflow and borrow -/

/-- Settles O19: the sum is `addByte`, whose carry out `carry8` is. -/
theorem signComparisonCarry : Obligations.SignComparisonCarry := by
  unfold Obligations.SignComparisonCarry
  exact carry8_addByte

/-- Adding NOT(m) with a carry subtracts m with the opposite borrow. -/
theorem addByte_not (a m : Byte) (c : Bool) : addByte a (~~~m) c = a - m - bitByte (!c) := by
  have hm := m.isLt
  apply BitVec.eq_of_toNat_eq
  rw [toNat_addByte, BitVec.toNat_sub, BitVec.toNat_sub, BitVec.toNat_not, toNat_bitByte]
  cases c <;> simp only [Bool.not_false, Bool.not_true, Bool.toNat_true, Bool.toNat_false] <;> omega

theorem carry8_addByte_not (a m : Byte) (c : Bool) :
    carry8 a (~~~m) (addByte a (~~~m) c) = decide (m.toNat + (!c).toNat ≤ a.toNat) := by
  have hm := m.isLt
  rw [carry8_addByte, BitVec.toNat_not, decide_eq_decide]
  cases c <;> simp only [Bool.not_false, Bool.not_true, Bool.toNat_true, Bool.toNat_false] <;> omega

/-- Settles O44: V is the overflow of `addByte`, and the borrow form is the sum with NOT(m). -/
theorem overflowAndBorrow : Obligations.OverflowAndBorrow := by
  unfold Obligations.OverflowAndBorrow
  refine ⟨fun a m r c hr => ?overflow, fun a m r c hr => ?borrow⟩
  case overflow =>
    have hsum : r = addByte a m c := hr
    rw [hsum, overflow8_addByte, decide_eq_true_iff]
  case borrow =>
    have hsum : r = addByte a (~~~m) c := hr
    rw [hsum]
    exact ⟨addByte_not a m c, carry8_addByte_not a m c⟩

/-! ### LUP, CALL and RET -/

/-- Settles O20: LUP is its effect charged; ROS has a byte at every address. -/
theorem tableLookup : Obligations.TableLookup := by
  unfold Obligations.TableLookup
  refine ⟨fun d s => ⟨rfl, ?lup⟩, rfl, rfl⟩
  rw [← zextWord_eq_mkWord, ← zextWord_eq_mkWord]
  exact primaryStep_pure 2 s.cfg.costP.lup (fun u => u.setAc (zextWord (u.rosRead (u.ac + zextWord d)))) s

/-- Settles O22: each of the two is its effect charged. -/
theorem callReturn : Obligations.CallReturn := by
  unfold Obligations.CallReturn
  refine ⟨fun lo hi s => ⟨?encoding, ?call⟩, fun s => ⟨rfl, ?ret⟩, rfl, rfl⟩
  case encoding => simp [encode]
  case call => exact primaryStep_pure 3 s.cfg.costP.call (fun u => (u.setLr u.pc).setPc (mkWord hi lo)) s
  case ret => exact primaryStep_pure 1 s.cfg.costP.ret (fun u => u.setPc u.lr) s

/-! ### The register operations -/

theorem withC_false (p : Byte) : withC p false = p &&& 0xFE#8 := BitVec.or_zero

/-- Setting bit 0 needs no clearing of it first. -/
theorem withC_true (p : Byte) : withC p true = p ||| 0x01#8 := by
  change (p &&& 0xFE#8) ||| 0x01#8 = p ||| 0x01#8
  ext k hk
  interval_cases k <;> simp

section RegisterOperation

variable {i : Instr} {op v : Byte} {o : Operation} {m : Mode} {s : State}

theorem exec_putX (hrow : secondaryTable i = some (op, o, m)) (hsel : s.sel = 0x02#8)
    (heffect : o.effect (s.setSel selSFetch) = putX v (s.setSel selSFetch)) :
    exec i s = .next { s with
      sel := 0x01#8, t := s.t - o.cost s.cfg, scratch := { s.scratch with b4 := v, b5 := v, b6 := v } } :=
  exec_execute_of_ok hrow hsel heffect

theorem exec_putY (hrow : secondaryTable i = some (op, o, m)) (hsel : s.sel = 0x02#8)
    (heffect : o.effect (s.setSel selSFetch) = putY v (s.setSel selSFetch)) :
    exec i s = .next { s with
      sel := 0x01#8, t := s.t - o.cost s.cfg, scratch := { s.scratch with b4 := v, b5 := v, b7 := v } } :=
  exec_execute_of_ok hrow hsel heffect

theorem exec_putA (hrow : secondaryTable i = some (op, o, m)) (hsel : s.sel = 0x02#8)
    (heffect : o.effect (s.setSel selSFetch) = putA v (s.setSel selSFetch)) :
    exec i s = .next { s with
      ac := mkWord (hiByte s.ac) v, sel := 0x01#8, t := s.t - o.cost s.cfg,
      scratch := { s.scratch with b4 := v, b5 := v } } :=
  exec_execute_of_ok hrow hsel heffect

theorem exec_setP (hrow : secondaryTable i = some (op, o, m)) (hsel : s.sel = 0x02#8)
    (heffect : o.effect (s.setSel selSFetch) = .ok ((s.setSel selSFetch).setP v)) :
    exec i s = .next { s with
      sel := 0x01#8, t := s.t - o.cost s.cfg, scratch := { s.scratch with b3 := v } } :=
  exec_execute_of_ok hrow hsel heffect

end RegisterOperation

/-- Settles O46: each operation puts one value in X, Y, A or P. -/
theorem registerOperations : Obligations.RegisterOperations := by
  unfold Obligations.RegisterOperations
  refine ⟨fun s hsel => ⟨fun i v c h => ?x, fun i v c h => ?y⟩, rfl, rfl, rfl, rfl, rfl, rfl,
    fun s hsel => ⟨?txa, ?tya, ?clc, ?sec⟩, rfl, rfl, rfl, rfl⟩
  case x =>
    rcases h with ⟨rfl, rfl, rfl⟩ | ⟨rfl, rfl, rfl⟩ | ⟨rfl, rfl, rfl⟩
    · exact exec_putX (i := .inx) rfl hsel rfl
    · exact exec_putX (i := .dex) rfl hsel rfl
    · exact exec_putX (i := .tax) rfl hsel rfl
  case y =>
    rcases h with ⟨rfl, rfl, rfl⟩ | ⟨rfl, rfl, rfl⟩ | ⟨rfl, rfl, rfl⟩
    · exact exec_putY (i := .iny) rfl hsel rfl
    · exact exec_putY (i := .dey) rfl hsel rfl
    · exact exec_putY (i := .tay) rfl hsel rfl
  case txa => exact exec_putA (i := .txa) rfl hsel rfl
  case tya => exact exec_putA (i := .tya) rfl hsel rfl
  case clc => rw [← withC_false]; exact exec_setP (i := .clc) rfl hsel rfl
  case sec => rw [← withC_true]; exact exec_setP (i := .sec) rfl hsel rfl

/-! ### The flags through the stack (44_secondary.md R255, R278) -/

/-- The packed byte has N, V, D, I and C in their places, and bit 1 set where QZ = 0. -/
theorem packFlags_bits (p qz qn : Byte) :
    (packFlags p qz qn).getLsbD 7 = qn.getLsbD 7 ∧ (packFlags p qz qn).getLsbD 6 = p.getLsbD 6 ∧
    (packFlags p qz qn).getLsbD 3 = p.getLsbD 3 ∧ (packFlags p qz qn).getLsbD 2 = p.getLsbD 2 ∧
    (packFlags p qz qn).getLsbD 1 = (qz == 0x00#8) ∧ (packFlags p qz qn).getLsbD 0 = p.getLsbD 0 := by
  by_cases hz : qz = 0x00#8 <;> simp [packFlags, hz]

theorem unpackQN_sign (v : Byte) : (unpackQN v).getLsbD 7 = v.getLsbD 7 := by simp [unpackQN]

theorem unpackQZ_zero (v : Byte) : (unpackQZ v == 0x00#8) = v.getLsbD 1 := by
  rw [unpackQZ]
  cases v.getLsbD 1 <;> rfl

/-- Settles O49: outside the SCRATCH window the byte pushed is the byte pulled, whatever P, QZ and QN hold meanwhile, and
unpacking it gives back what was packed. -/
theorem flagsRoundTrip : Obligations.FlagsRoundTrip := by
  unfold Obligations.FlagsRoundTrip
  intro s t u p qz qn hsel hout hphp hplp
  obtain rfl : afterPush8 s (packFlags s.p s.qz s.qn) s.cfg.exCost.php = t :=
    Host.Outcome.next.inj ((exec_push8 (i := .php) rfl hsel rfl).symm.trans hphp)
  have hcfg : (afterPush8 s (packFlags s.p s.qz s.qn) s.cfg.exCost.php).cfg = s.cfg := by simp [afterPush8]
  have hquiet : Quiet (afterPush8 s (packFlags s.p s.qz s.qn) s.cfg.exCost.php)
      { afterPush8 s (packFlags s.p s.qz s.qn) s.cfg.exCost.php with
        sel := 0x02#8,
        scratch := { (afterPush8 s (packFlags s.p s.qz s.qn) s.cfg.exCost.php).scratch with
          b3 := p, b4 := qz, b5 := qn } } := ⟨rfl, rfl, rfl⟩
  have hpulled := (hquiet.sameReadsOutsideScratch _ (hcfg.symm ▸ hout)).trans
    (memRead_afterPush8 s (packFlags s.p s.qz s.qn) s.cfg.exCost.php).1
  obtain rfl := Host.Outcome.next.inj ((exec_pull_of_some (i := .plp) rfl rfl (effect_plp _) hpulled).symm.trans hplp)
  obtain ⟨hN, hV, hD, hI, hZ, hC⟩ := packFlags_bits s.p s.qz s.qn
  refine ⟨(unpackQN_sign _).trans hN, hV, hD, hI, (unpackQZ_zero _).trans hZ, hC, ?sp⟩
  exact BitVec.sub_add_cancel s.sp 1

end Sys2Proof.Machine
end
